-- ==== Sys2Proof/Word.lean ====
section
/-! DEFINITION. The word types of the FB-512: bytes, host bus addresses, tags, segment ids and block numbers. -/

namespace Sys2Proof

/-- One byte, of a frame, of a segment's contents or of the serial memory. -/
abbrev Byte := BitVec 8

/-- A host bus offset: a 24-bit byte address (00, "Addresses and sizes"). -/
abbrev Addr := BitVec 24

/-- A read's tag, 0 to 15 (R51). -/
abbrev Tag := Fin 16

/-- A segment id, 1 to 62 (R26). The value `n` of the type stands for the id `n + 1`. -/
abbrev SegId := Fin 62

/-- The number of a segment id, 1 to 62. -/
def segNum (i : SegId) : Nat := i.val + 1

/-- The segment id that a number names, if it names one: 0 and 63 upward name none. -/
def segId? (n : Nat) : Option SegId :=
  if h : 1 ≤ n ∧ n ≤ 62 then some ⟨n - 1, by omega⟩ else none

/-- An overlay SRAM block number, 0 to 511 (R23). -/
abbrev Block := Fin 512

/-- An index into a map bank, 0 to 31 (R1). -/
abbrev MapIndex := Fin 32

end Sys2Proof
end

