-- ==== Sys2Proof/Syntax.lean ====
section
/-! DEFINITION. The commands of the block: one constructor for each row of spec/opcode_table.json. -/

namespace Sys2Proof

/-- Why a frame is discarded (R156): its payload length byte, as received, is above 72, or its transfer
ends before the check byte. -/
inductive DiscardCause where
  | badLength (len : Byte)
  | earlyEnd
  deriving DecidableEq, Repr

/-- How much of a presentation an event carries out. `whole`: everything. `lookup`: the acceptance checks and the
lookup, and the whole route where it needs no segment. `enquiry`: the segment store is asked for the segment of that
lookup and the route carried out, other events having come between (R57, R103, log 25). -/
inductive PresentPart where
  | whole | lookup | enquiry
  deriving DecidableEq, Repr

/-- The length of a READ, and how much of its presentation the event carries out. -/
structure ReadLength where
  len : Nat
  part : PresentPart
  deriving DecidableEq, Repr

/-- The data bytes of a WRITE, and how much of its presentation the event carries out. -/
structure WriteData where
  bytes : List Byte
  part : PresentPart
  deriving DecidableEq, Repr

/-- What the end of a READ brings. `ends`: the bytes the device returned; the bytes that stand beyond them in the
serial memory, which tell where a boot record ends (log 7); how many of the events that these bytes lead to, at the
catalog loader and the start-up sequencer, come with this one. `goesOn`: how many more of those events come, others
having come between (R141, R148 to R151, log 20). -/
inductive ReadEnd where
  | ends (bytes ahead : List Byte) (taken : Nat)
  | goesOn (count : Nat)
  deriving DecidableEq, Repr

/-- What the end of a busy poll or reset poll brings. `ends`: the status byte returned; the bytes that stand in the
serial memory from the boot record's first byte on, which tell where the record ends (log 7); whether the start-up
sequencer takes the result in the same event. `taken`: it takes the result, with those bytes, other events having
come between (R145, log 20). -/
inductive PollAnswer where
  | ends (status : Byte) (ahead : List Byte) (taken : Bool)
  | taken (ahead : List Byte)
  deriving DecidableEq, Repr

/-- A part of an I2C write transfer: its start with the 7-bit address sent (`some`), or the transfer on the bus
going on (`none`), and the data bytes sent in this event, up to the one that completes or discards the frame
(log 11). -/
structure WritePart where
  addr : Option (BitVec 7)
  data : List Byte
  deriving DecidableEq, Repr

/-- One command of the block. The management commands (IDENTIFY to LINK_RECOVER but for the link's own
events) carry no arguments: their arguments are bytes of the frame that the EXECUTING buffer holds (R160). -/
inductive Instr where
  /-- PIN_RESET: power-on (`true`) or assertion of RESET_N (`false`). -/
  | pinReset (powerOn : Bool)
  /-- PIN_RESET_RELEASE: release of RESET_N, with the levels of the strap pins. -/
  | pinResetRelease (sz : BitVec 3) (ma : BitVec 2) (bootEn : Bool)
  /-- READ: a host read presentation, or a part of one. -/
  | read (tag : Tag) (addr : Addr) (len : ReadLength)
  /-- WRITE: a host write presentation, or a part of one; its length is the number of data bytes. -/
  | write (addr : Addr) (data : WriteData)
  /-- ARBITER_CHOICE. -/
  | arbiterChoice
  /-- READ_TRANSACTION_END: the end of a READ, or what it led to at the catalog loader and the start-up sequencer
  going on. -/
  | readTransactionEnd (data : ReadEnd)
  /-- WRITE_ENABLE_END. -/
  | writeEnableEnd
  /-- WRITE_TRANSACTION_END. -/
  | writeTransactionEnd
  /-- POLL_START. -/
  | pollStart
  /-- BUSY_TIMER_EXPIRY. -/
  | busyTimerExpiry
  /-- POLL_END: the end of a busy poll or reset poll, or its result taken by the start-up sequencer. -/
  | pollEnd (status : PollAnswer)
  /-- WRITE_TRANSFER_START: the start of an I2C write transfer, or the transfer on the bus going on. -/
  | writeTransferStart (addr : WritePart)
  /-- FRAME_COMPLETE: receipt of the check byte of the frame with this command code and payload, whose bytes
  before the check byte stand in the RECEIVING buffer. -/
  | frameComplete (code : Byte) (payload : List Byte) (check : Byte)
  /-- FRAME_DISCARD. -/
  | frameDiscard (cause : DiscardCause)
  /-- READ_TRANSFER: the start of an I2C read transfer with the 7-bit address sent (`some`), or the
  transfer on the bus going on (`none`), and the number of bytes the management host reads. -/
  | readTransfer (addr : Option (BitVec 7)) (count : Nat)
  /-- EXECUTOR_TAKE. -/
  | executorTake
  /-- IDENTIFY. -/
  | identify
  /-- STATUS: how many of the nine owners, in the order of R167, are read in this event. -/
  | status (owners : Nat)
  /-- SET_PARAM. -/
  | setParam
  /-- RESET. -/
  | reset
  /-- EVENT_READ. -/
  | eventRead
  /-- MAP_WRITE. -/
  | mapWrite
  /-- MAP_CLEAR. -/
  | mapClear
  /-- MAP_COPY. -/
  | mapCopy
  /-- MAP_READ. -/
  | mapRead
  /-- MAP_COMMIT. -/
  | mapCommit
  /-- SEG_DECLARE. -/
  | segDeclare
  /-- SEG_RELEASE. -/
  | segRelease
  /-- SEG_DROP. -/
  | segDrop
  /-- SEG_PIN. -/
  | segPin
  /-- SEG_QUERY. -/
  | segQuery
  /-- SEG_READ. -/
  | segRead
  /-- PRELOAD. -/
  | preload
  /-- FILL_BEGIN. -/
  | fillBegin
  /-- FILL_DATA. -/
  | fillData
  /-- FILL_END. -/
  | fillEnd
  /-- FILL_ABORT. -/
  | fillAbort
  /-- CATALOG_LOAD. -/
  | catalogLoad
  /-- LINK_RECOVER. -/
  | linkRecover
  /-- LINK_RECOVER_POLL_END: the end of the recovery poll, with the status byte returned. -/
  | linkRecoverPollEnd (status : Byte)
  /-- TAKE_HEAD. -/
  | takeHead
  /-- START_TIMER_EXPIRY. -/
  | startTimerExpiry
  /-- GAP_TIMER_EXPIRY. -/
  | gapTimerExpiry
  deriving DecidableEq, Repr

end Sys2Proof
end

