-- ==== Sys2Proof/Decode.lean ====
section
/-! DEFINITION. The reading of opcode-table words. No row of spec/opcode_table.json gives bits: the block
has no instruction words, so no word spells a command. -/

namespace Sys2Proof

/-- The command that a word of the table spells: none, since every row's field list is empty. -/
def decodeTableWord (_nbits _w : Nat) : Option Instr := none

end Sys2Proof
end

