-- ==== Sys2Proof/Config.lean ====
section
/-! DEFINITION. What is fixed for every FB-512, and the one free value. -/

namespace Sys2Proof.Config

/-- The READ-queue capacity is not here: R64 shows it cannot overflow. Held-read table records (R67). -/
def heldCapacity : Nat := 8
/-- Fill queue ids (R75). -/
def fillCapacity : Nat := 8
/-- Write queue entries (R108). -/
def writeCapacity : Nat := 8
/-- Event queue records (R172). -/
def eventCapacity : Nat := 15
/-- Largest command payload in bytes (R155). -/
def payloadMax : Nat := 72
/-- WRITE_PROMOTE, a fixed threshold (R124). -/
def writePromote : Nat := 6
/-- The loader aging limit (R125). -/
def agingLimit : Nat := 8
/-- Bytes in a window (00, "Addresses and sizes"). -/
def windowBytes : Nat := 32
/-- Bytes in a block (R23). -/
def blockBytes : Nat := 256
/-- START_TIMEOUT after reset, in ms (R93). -/
def startTimeoutReset : Nat := 2000
/-- GAP_TIMEOUT after reset, in ms (R93). -/
def gapTimeoutReset : Nat := 500
/-- BUSY_TIMEOUT after reset and the limit of the reset poll, in ms (R120, R136). -/
def busyTimeoutReset : Nat := 20
/-- LINK_DIVIDER after reset (R119). -/
def dividerReset : Nat := 8
/-- WRITE_HIGH_WATER after reset (R110). -/
def highWaterReset : Nat := 8

/-- FREE VALUE (log 9): what a byte offset outside a segment's block list reads as. R5 and R25 say that no
access reaches such an offset, so the spec states no value; nothing can evaluate this one. -/
opaque strayByte : Nat → Byte

end Sys2Proof.Config
end

