-- ==== Sys2Proof/Machine/State.lean ====
section
/-! DEFINITION. Everything the FB-512 holds, as plain data, one structure for each block that owns state
(00, "Block overview"), and the state right after power-on. -/

namespace Sys2Proof.Machine

/-! ### Pins and straps -/

/-- RESET_N and the strap levels sampled at its last release (00, "Straps and pins"). -/
structure Pins where
  /-- RESET_N is asserted, or power is not yet good. -/
  inReset : Bool
  sz : BitVec 3
  ma : BitVec 2
  bootEn : Bool
  deriving DecidableEq, Repr

/-! ### Map unit (R1 to R22) -/

/-- What a host write that hits an entry does (R3). -/
inductive WritePolicy where
  | discard | through | shadow | fault
  deriving DecidableEq, Repr

/-- What a host read that hits an entry does when its segment is not RESIDENT (R3). -/
inductive AbsencePolicy where
  | hold | pass | quiet | fault
  deriving DecidableEq, Repr

/-- A valid map entry (R2). -/
structure MapEntry where
  base : Nat
  size : Nat
  seg : SegId
  offset : Nat
  wpol : WritePolicy
  apol : AbsencePolicy
  deriving DecidableEq, Repr

/-- A map bank: 32 entries, each invalid (`none`) or valid (R1). -/
abbrev Bank := Vector (Option MapEntry) 32

/-- The map unit's state (R1). -/
structure MapUnit where
  active : Bank
  shadow : Bank
  generation : BitVec 16
  deriving DecidableEq, Repr

/-! ### Segment store (R23 to R50) -/

/-- The state of a declared segment (R27). UNDECLARED is the absence of a record. -/
inductive SegState where
  | absent | queued | requested | filling | resident | failed
  deriving DecidableEq, Repr

/-- Where a segment's queue-origin fills take their bytes from; a catalog segment has an image address (R26). -/
inductive Source where
  | catalog (image : Nat)
  | host
  deriving DecidableEq, Repr

/-- The reasons for which a fill fails (R96). -/
inductive FailReason where
  | startTimeout | dataTimeout | crc | length | noSpace | aborted | dnStalled
  deriving DecidableEq, Repr

/-- The state a segment had just before a direct fill (R27). -/
inductive Prior where
  | absent | failed
  deriving DecidableEq, Repr

/-- The origin of a fill (R27). -/
inductive Origin where
  | queue
  | direct (prior : Prior)
  deriving DecidableEq, Repr

/-- The record of a declared segment (R26). -/
structure SegRecord where
  state : SegState
  source : Source
  length : Nat
  crc : BitVec 16
  pinned : Bool
  dirty : Bool
  blocks : List Block
  held : Nat
  discards : Nat
  fills : Nat
  lastFailure : Option FailReason
  origin : Option Origin
  deriving DecidableEq, Repr

/-- The segment store's state: overlay SRAM (keys block × 256 + byte), the free list, the segment table
(`none` is UNDECLARED) and the residence list, least recently used first. -/
structure Store where
  sram : List Host.Cell
  free : List Block
  segs : Vector (Option SegRecord) 62
  residence : List SegId
  deriving DecidableEq, Repr

/-! ### Host bus port (R51 to R74) -/

/-- A read-queue entry (R64); `active` is LINK_ACTIVE. -/
structure ReadEntry where
  tag : Tag
  addr : Nat
  len : Nat
  active : Bool
  deriving DecidableEq, Repr

/-- A held-read record (R67). -/
structure HeldRead where
  tag : Tag
  addr : Nat
  len : Nat
  seg : SegId
  offset : Nat
  arrival : BitVec 8
  deriving DecidableEq, Repr

/-- A READ as presented (R51). -/
structure ReadRequest where
  tag : Tag
  addr : Nat
  len : Nat
  deriving DecidableEq, Repr

/-- The result of a lookup that hits (R5). -/
structure Hit where
  index : MapIndex
  seg : SegId
  offset : Nat
  wpol : WritePolicy
  apol : AbsencePolicy
  deriving DecidableEq, Repr

/-- A presentation that has passed the acceptance checks and been looked up and waits for its enquiry at the segment
store, with the lookup result it keeps (R6, R57, R103). -/
inductive Looked where
  | read (q : ReadRequest) (hit : Hit)
  | write (addr : Nat) (data : List Byte) (hit : Hit)
  deriving DecidableEq, Repr

/-- The host bus port's state: the outstanding tags (no order, no repeats), the read queue, the held-read
table in arrival order, the arrival counter, the presentation that waits for its enquiry. -/
structure Port where
  tags : List Tag
  readQueue : List ReadEntry
  held : List HeldRead
  arrival : BitVec 8
  looked : Option Looked
  deriving DecidableEq, Repr

/-! ### Fill engine (R75 to R101) -/

/-- The fill engine (R78). A timer runs exactly in the state that carries its duration, in ms. -/
inductive Engine where
  | idle
  | awaitHost (seg : SegId) (startTimer : Nat)
  | loadingHost (seg : SegId) (origin : Origin) (received : Nat) (crc : BitVec 16) (gapTimer : Nat)
  | loadingCatalog (seg : SegId) (origin : Origin) (received : Nat) (crc : BitVec 16)
  deriving DecidableEq, Repr

/-- The outcome in the last end (R100). -/
inductive FillOutcome where
  | done | failed (reason : FailReason) | undone | reset
  deriving DecidableEq, Repr

/-- The fill engine's state and its queue (R75, R78). -/
structure FillUnit where
  queue : List SegId
  engine : Engine
  startTimeout : Nat
  gapTimeout : Nat
  lastEnd : Option (SegId × FillOutcome)
  deriving DecidableEq, Repr

/-! ### Write path (R102 to R117) -/

/-- A write-queue entry (R108); its length is the number of its bytes; `inFlight` is IN_FLIGHT. -/
structure WriteEntry where
  addr : Nat
  data : List Byte
  inFlight : Bool
  deriving DecidableEq, Repr

/-- The write path's state (R108, R110, R117). -/
structure WritePath where
  queue : List WriteEntry
  highWater : Nat
  resetDiscard : Nat
  deriving DecidableEq, Repr

/-! ### Serial memory controller (R118 to R136) -/

/-- The link state (R120). -/
inductive LinkState where
  | ready | busyWait | stalled
  deriving DecidableEq, Repr

/-- What the link is serving (R120). -/
inductive Holder where
  | none | r | w | l | poll
  deriving DecidableEq, Repr

/-- The four kinds of transaction and what the part sends with each (R118). -/
inductive TxOp where
  | read (addr len : Nat)
  | writeEnable
  | write (addr : Nat) (data : List Byte)
  | readStatus
  deriving DecidableEq, Repr

/-- A transaction on the serial link, with the LINK_DIVIDER read at its start (R119). -/
structure Transaction where
  op : TxOp
  divider : Nat
  deriving DecidableEq, Repr

/-- Who asks the loader for a read (R123). -/
inductive Requester where
  | fill | catalog | bootRecord
  deriving DecidableEq, Repr

/-- A request in the loader (R123). -/
structure LoaderRequest where
  client : Requester
  addr : Nat
  len : Nat
  granted : Bool
  withdrawn : Bool
  deriving DecidableEq, Repr

/-- The serial memory controller's state (R120) with the loader (R123). -/
structure Controller where
  link : LinkState
  holder : Holder
  tx : Option Transaction
  /-- Stopped, or running with this limit in ms. -/
  busyTimer : Option Nat
  expired : Bool
  aging : Nat
  busyTimeout : Nat
  divider : Nat
  loader : List LoaderRequest
  deriving DecidableEq, Repr

/-! ### Start-up sequencer and catalog loader (R137 to R153) -/

/-- The start-up stage (R143). -/
inductive Stage where
  | poll | record | catalog | map | preload | commit | run
  deriving DecidableEq, Repr

/-- The start-up outcome (R143). -/
inductive StartOutcome where
  | ok | disabled | noRecord | badCatalog | badMap | linkStalled
  deriving DecidableEq, Repr

/-- A map entry with its index, in the MAP_WRITE layout, before any check (10.3). -/
structure RawEntry where
  index : Nat
  base : Nat
  size : Nat
  seg : Nat
  offset : Nat
  wpol : Nat
  apol : Nat
  deriving DecidableEq, Repr

/-- The boot record contents kept from stage RECORD on (R143): the catalog address or none, the map
entries, the preload ids as read. -/
structure BootRecord where
  catalog : Option Nat
  entries : List RawEntry
  preloads : List Byte
  deriving DecidableEq, Repr

/-- The boot record as far as it has been read, and the CRC-16 over its bytes before the CRC item (R146). -/
structure BootRead where
  bytes : List Byte
  crc : BitVec 16
  deriving DecidableEq, Repr

/-- How far the reading of a catalog has come (R139), or its application: the descriptors not yet applied and the
counts declared and skipped so far (R141). -/
inductive CatalogPhase where
  | header (bytes : List Byte)
  | descriptors (count : Nat) (headerCrc : BitVec 16) (bytes : List Byte) (crc : BitVec 16)
  | applying (left : List (List Byte)) (declared skipped : Nat)
  deriving DecidableEq, Repr

/-- The catalog loader's work: the next address not yet read and the part being read or applied (R139, R141). -/
structure CatalogRead where
  next : Nat
  phase : CatalogPhase
  deriving DecidableEq, Repr

/-- The start-up record (R143), what the loader's two start-up readers hold, and how far the sequencer has come in
two of its stages: the entries of the record written (R148), and the commit of stage COMMIT behind it (R150). -/
structure Startup where
  stage : Stage
  outcome : StartOutcome
  mapFaulted : Bool
  failures : Nat
  position : Nat
  record : Option BootRecord
  bootRead : Option BootRead
  catalog : Option CatalogRead
  written : Nat
  committed : Bool
  deriving DecidableEq, Repr

/-! ### Management link (R154 to R171) -/

/-- The statuses of section 8.6. -/
inductive Status where
  | ok | badCheck | unknownCommand | badLength | badArgument | starting | busy | exists_ | notFound
  | inUse | dirty | wrongState | full | sequence | length | invalidMap | badCatalog | linkStalled
  | stillBusy
  deriving DecidableEq, Repr

/-- The two command buffers. -/
inductive BufId where
  | A | B
  deriving DecidableEq, Repr

/-- A command frame without its check byte (R155). -/
structure Frame where
  code : Byte
  payload : List Byte
  deriving DecidableEq, Repr

/-- A response without its check byte (R164). -/
structure Response where
  status : Status
  code : Byte
  seq : BitVec 8
  payload : List Byte
  deriving DecidableEq, Repr

/-- A command buffer's state and what it holds (R158). -/
inductive CmdBuffer where
  | empty
  /-- The data bytes received so far, in order. -/
  | receiving (bytes : List Byte)
  | pending (frame : Frame) (seq : BitVec 8) (checkOk : Bool)
  | executing (frame : Frame) (seq : BitVec 8)
  | answered (response : Response)
  deriving DecidableEq, Repr

/-- What the BUSY executor's command is doing: handed to its owner, or one of the two long commands of
R162 under way. -/
inductive Phase where
  | handed | catalogLoad | linkRecover
  deriving DecidableEq, Repr

/-- The command executor (R160). -/
inductive Executor where
  | idle
  | busy (buf : BufId) (phase : Phase)
  deriving DecidableEq, Repr

/-- A read transfer on the bus: the buffer its response stands in (none for NOT_READY or a response that
is gone) and the bytes of the frame still to be sent (R163, R170). -/
structure ReadTransfer where
  source : Option BufId
  left : List Byte
  deriving DecidableEq, Repr

/-- The management link's state. `scan` holds the items a STATUS has read so far, owner by owner (R167);
`refusing` says that a write transfer addressed to the part is on the bus of which the target acknowledges no
further data byte (R155, R156, R159, R170). -/
structure Mgmt where
  bufA : CmdBuffer
  bufB : CmdBuffer
  mark : BufId
  seq : BitVec 8
  executor : Executor
  scan : List (List Byte)
  reading : Option ReadTransfer
  refusing : Bool
  deriving DecidableEq, Repr

/-! ### Event queue (R172 to R181) -/

/-- The access fault reasons (R63, R116). -/
inductive AccessFault where
  | align | segFailed | mapFault | range | linkStalled | notResident | writeFault
  deriving DecidableEq, Repr

/-- The reasons of a CATALOG_CONFLICT (R141). -/
inductive ConflictReason where
  | exists_ | badDescriptor
  deriving DecidableEq, Repr

/-- The ten kinds of event and their fields (R173). -/
inductive Event where
  | fillRequest (seg : SegId) (length : Nat) (crc : BitVec 16) (held : Nat)
  | fillDone (seg : SegId) (origin : Origin) (replayed : Nat)
  | fillFailed (seg : SegId) (reason : FailReason) (errored : Nat)
  | evicted (seg : SegId) (blocks : Nat) (cause : SegId)
  | readFault (tag : Tag) (addr len : Nat) (reason : AccessFault) (seg : Option SegId)
  | writeFault (addr len : Nat) (reason : AccessFault) (seg : Option SegId)
  | dnStalled (uncertain : Option (Nat × Nat)) (errored : Nat) (fillFailed : Bool)
  | catalogConflict (id : Byte) (reason : ConflictReason)
  | startupDone (outcome : StartOutcome) (generation : BitVec 16) (failures discarded : Nat)
  | eventsLost (count : Nat)
  deriving DecidableEq, Repr

/-- An event record: its kind and fields, and its sequence number (R172). -/
structure EventRec where
  event : Event
  seq : BitVec 8
  deriving DecidableEq, Repr

/-- The event queue (R172). -/
structure EventQueue where
  records : List EventRec
  lost : Nat
  seq : BitVec 8
  deriving DecidableEq, Repr

/-! ### Outputs: the MODEL's own record of what the part has answered and driven (log 10) -/

/-- The answer to a presentation (R52); WACK is a write's accepting answer. -/
inductive Answer where
  | accepted | wack | retry | error
  deriving DecidableEq, Repr

/-- One thing the part puts out. -/
inductive Output where
  /-- The answer to the presentation just made. -/
  | answer (a : Answer)
  /-- The second answer DATA(tag) with its bytes. -/
  | data (tag : Tag) (bytes : List Byte)
  /-- The second answer ERROR(tag). -/
  | errorTag (tag : Tag)
  /-- CS_N falls and a transaction begins; `TxOp.sent` says what the part sends in its course. -/
  | begins (t : Transaction)
  /-- CS_N is driven high in the middle of a transaction. -/
  | deselect
  /-- An I2C address acknowledged or not. -/
  | addressAck (ack : Bool)
  /-- A data byte of a write transfer acknowledged or not (R155, R156, R159, R170). -/
  | dataAck (ack : Bool)
  /-- Bytes sent in a read transfer. -/
  | sent (bytes : List Byte)
  deriving DecidableEq, Repr

/-! ### The whole state -/

/-- The whole of the FB-512. `pending` and `outputs` are the model's own. -/
structure State where
  pending : List Instr
  outputs : List Output
  pins : Pins
  map : MapUnit
  store : Store
  port : Port
  fill : FillUnit
  write : WritePath
  ctl : Controller
  startup : Startup
  mgmt : Mgmt
  events : EventQueue
  deriving DecidableEq, Repr

/-- No command of this block stops the machine with a fault: a refused access or command is an answer. -/
inductive Fault where
  deriving DecidableEq, Repr

/-- Why the model has no meaning for a command. -/
inductive Refusal where
  /-- Raised by exec's arm for a command the model has no meaning for; safe. No arm raises it. -/
  | notModelled (mnemonic : String)
  deriving DecidableEq, Repr

/-! ### Reset values -/

/-- A bank with every entry invalid (R1). -/
def Bank.invalid : Bank := Vector.replicate 32 none

/-- R22. -/
def MapUnit.reset : MapUnit := { active := Bank.invalid, shadow := Bank.invalid, generation := 0 }

/-- R50. The SRAM bytes stay what they were; no block list reaches them (R23). -/
def Store.reset (sram : List Host.Cell) : Store :=
  { sram := sram, free := List.finRange 512, segs := Vector.replicate 62 none, residence := [] }

/-- R64, R67, R73, R74. -/
def Port.reset : Port := { tags := [], readQueue := [], held := [], arrival := 0, looked := none }

/-- R101, with the last end that the reset leaves. -/
def FillUnit.reset (lastEnd : Option (SegId × FillOutcome)) : FillUnit :=
  { queue := [], engine := .idle, startTimeout := Config.startTimeoutReset,
    gapTimeout := Config.gapTimeoutReset, lastEnd := lastEnd }

/-- R117, with the reset-discard count that the reset leaves. -/
def WritePath.reset (discarded : Nat) : WritePath :=
  { queue := [], highWater := Config.highWaterReset, resetDiscard := discarded }

/-- R120 while RESET_N is asserted: no transaction, and the busy timer not yet started (R136, log 4). -/
def Controller.held : Controller :=
  { link := .busyWait, holder := .poll, tx := none, busyTimer := none, expired := false, aging := 0,
    busyTimeout := Config.busyTimeoutReset, divider := Config.dividerReset, loader := [] }

/-- R143, R153. -/
def Startup.reset : Startup :=
  { stage := .poll, outcome := .ok, mapFaulted := false, failures := 0, position := 0, record := none,
    bootRead := none, catalog := none, written := 0, committed := false }

/-- R171. -/
def Mgmt.reset : Mgmt :=
  { bufA := .empty, bufB := .empty, mark := .A, seq := 0, executor := .idle, scan := [], reading := none,
    refusing := false }

/-- R181. -/
def EventQueue.reset : EventQueue := { records := [], lost := 0, seq := 0 }

/-- The part right after power-on, RESET_N not yet released (log 3): every block at its pin-reset value,
the straps not yet sampled (their three fields are DESIGN CHOICE zeros until PIN_RESET_RELEASE). -/
def State.reset : State :=
  { pending := [], outputs := [],
    pins := { inReset := true, sz := 0, ma := 0, bootEn := false },
    map := MapUnit.reset, store := Store.reset [], port := Port.reset, fill := FillUnit.reset none,
    write := WritePath.reset 0, ctl := Controller.held, startup := Startup.reset, mgmt := Mgmt.reset,
    events := EventQueue.reset }

end Sys2Proof.Machine
end

