-- ==== Sys2Proof/Machine/Formats.lean ====
section
/-! DEFINITION. The byte layouts and numeric codes of file 10, the check codes of file 00 and the sizes the
straps give. -/

namespace Sys2Proof.Machine

/-! ### Bytes and little-endian fields -/

/-- The byte whose value is `n` modulo 256. -/
def byte (n : Nat) : Byte := BitVec.ofNat 8 n

/-- The `n` bytes of a value, least significant first (00, "Byte order"). -/
def leBytes : Nat → Nat → List Byte
  | 0, _ => []
  | n + 1, v => byte v :: leBytes n (v / 256)

/-- The value of bytes that stand least significant first. -/
def leValue : List Byte → Nat
  | [] => 0
  | b :: bs => b.toNat + 256 * leValue bs

/-- The byte at an offset of a structure. -/
def byteAt (bs : List Byte) (off : Nat) : Byte := bs.getD off 0

/-- The little-endian field of `n` bytes at an offset. -/
def field (bs : List Byte) (off n : Nat) : Nat := leValue ((bs.drop off).take n)

/-- `n` divided by 256, rounded up: the block count of a declared length (R15, R25). -/
def blocksFor (length : Nat) : Nat := (length + 255) / 256

/-! ### Check codes (00, "Check codes") -/

/-- One shift of the CRC-16 register, polynomial 1021h, most significant bit first. -/
def crc16Shift (c : BitVec 16) : BitVec 16 :=
  if c.msb then (c <<< 1) ^^^ 0x1021#16 else c <<< 1

/-- The CRC-16 advanced over one byte. -/
def crc16Byte (c : BitVec 16) (b : Byte) : BitVec 16 :=
  Nat.repeat crc16Shift 8 (c ^^^ ((b.setWidth 16) <<< 8))

/-- The CRC-16 advanced over bytes in ascending order. -/
def crc16Over (c : BitVec 16) (bs : List Byte) : BitVec 16 := bs.foldl crc16Byte c

/-- The CRC-16's initial value. -/
def crc16Init : BitVec 16 := 0xFFFF#16

/-- One shift of the CRC-8 register, polynomial 07h. -/
def crc8Shift (c : Byte) : Byte := if c.msb then (c <<< 1) ^^^ 0x07#8 else c <<< 1

/-- The CRC-8 of a frame's bytes before its check byte, initial value 00h. -/
def crc8 (bs : List Byte) : Byte := bs.foldl (fun c b => Nat.repeat crc8Shift 8 (c ^^^ b)) 0

/-! ### Straps -/

/-- The memory size in MiB that SZ gives (00, "Straps and pins"). -/
def memoryMiB (sz : BitVec 3) : Nat := if sz.toNat ≤ 4 then 2 ^ sz.toNat else 16

/-- The strapped serial memory size in bytes: 1 MiB is 2 ^ 20 (00, "Straps and pins"; R142). -/
def State.memSize (s : State) : Nat :=
  if s.pins.sz.toNat ≤ 4 then 2 ^ (20 + s.pins.sz.toNat) else 16777216

/-- The 7-bit management address: 10110b and MA[1:0] (R154). -/
def State.targetAddress (s : State) : BitVec 7 := 0b10110#5 ++ s.pins.ma

/-- The boot record's address (R142). -/
def State.bootAddress (s : State) : Nat := s.memSize - 4096

/-! ### Numeric codes (10.7) -/

/-- Status codes. -/
def Status.code : Status → Byte
  | .ok => 0x00 | .badCheck => 0x01 | .unknownCommand => 0x02 | .badLength => 0x03
  | .badArgument => 0x04 | .starting => 0x05 | .busy => 0x06 | .exists_ => 0x07 | .notFound => 0x08
  | .inUse => 0x09 | .dirty => 0x0A | .wrongState => 0x0B | .full => 0x0C | .sequence => 0x0D
  | .length => 0x0E | .invalidMap => 0x0F | .badCatalog => 0x10 | .linkStalled => 0x11
  | .stillBusy => 0x12

/-- Segment states; UNDECLARED is 00h. -/
def SegState.code : SegState → Byte
  | .absent => 0x01 | .queued => 0x02 | .requested => 0x03 | .filling => 0x04 | .resident => 0x05
  | .failed => 0x06

/-- Write policies. -/
def WritePolicy.code : WritePolicy → Byte
  | .discard => 0x00 | .through => 0x01 | .shadow => 0x02 | .fault => 0x03

/-- The write policy a code names, if it names one (R10). -/
def writePolicy? : Nat → Option WritePolicy
  | 0 => some .discard | 1 => some .through | 2 => some .shadow | 3 => some .fault | _ => none

/-- Absence policies. -/
def AbsencePolicy.code : AbsencePolicy → Byte
  | .hold => 0x00 | .pass => 0x01 | .quiet => 0x02 | .fault => 0x03

/-- The absence policy a code names, if it names one (R10). -/
def absencePolicy? : Nat → Option AbsencePolicy
  | 0 => some .hold | 1 => some .pass | 2 => some .quiet | 3 => some .fault | _ => none

/-- Fill outcome codes of the failure reasons. -/
def FailReason.code : FailReason → Byte
  | .startTimeout => 0x01 | .dataTimeout => 0x02 | .crc => 0x03 | .length => 0x04 | .noSpace => 0x05
  | .aborted => 0x06 | .dnStalled => 0x07

/-- Fill outcome codes of the last end. -/
def FillOutcome.code : FillOutcome → Byte
  | .done => 0x10 | .failed r => r.code | .undone => 0x11 | .reset => 0x12

/-- Access fault codes. -/
def AccessFault.code : AccessFault → Byte
  | .align => 0x01 | .segFailed => 0x02 | .mapFault => 0x03 | .range => 0x04 | .linkStalled => 0x05
  | .notResident => 0x06 | .writeFault => 0x07

/-- Engine state codes. -/
def Engine.code : Engine → Byte
  | .idle => 0x00 | .awaitHost _ _ => 0x01 | .loadingHost _ _ _ _ _ => 0x02
  | .loadingCatalog _ _ _ _ => 0x03

/-- Link state codes. -/
def LinkState.code : LinkState → Byte
  | .ready => 0x00 | .busyWait => 0x01 | .stalled => 0x02

/-- Holder codes. -/
def Holder.code : Holder → Byte
  | .none => 0x00 | .r => 0x01 | .w => 0x02 | .l => 0x03 | .poll => 0x04

/-- Buffer state codes. -/
def CmdBuffer.code : CmdBuffer → Nat
  | .empty => 0 | .receiving _ => 1 | .pending _ _ _ => 2 | .executing _ _ => 3 | .answered _ => 4

/-- Start-up stage codes. -/
def Stage.code : Stage → Byte
  | .poll => 0x00 | .record => 0x01 | .catalog => 0x02 | .map => 0x03 | .preload => 0x04
  | .commit => 0x05 | .run => 0x06

/-- Start-up outcome codes. -/
def StartOutcome.code : StartOutcome → Byte
  | .ok => 0x00 | .disabled => 0x01 | .noRecord => 0x02 | .badCatalog => 0x03 | .badMap => 0x04
  | .linkStalled => 0x05

/-- CATALOG_CONFLICT reasons (10.5). -/
def ConflictReason.code : ConflictReason → Byte
  | .exists_ => 0x01 | .badDescriptor => 0x02

/-- Origins in SEG_QUERY (10.3): 00h is none. -/
def originCode : Option Origin → Byte
  | none => 0x00 | some .queue => 0x01 | some (.direct .absent) => 0x02 | some (.direct .failed) => 0x03

/-- Origins in FILL_DONE (10.5). -/
def Origin.eventCode : Origin → Byte
  | .queue => 0x01 | .direct _ => 0x02

/-! ### Command codes and payload lengths (10.2, R182) -/

/-- The known command codes, each with the least and greatest payload length it accepts. -/
def commandTable : List (Byte × Nat × Nat) :=
  [(0x01, 0, 0), (0x02, 0, 0), (0x03, 3, 3), (0x04, 0, 0), (0x05, 1, 1), (0x10, 12, 12), (0x11, 1, 1),
   (0x12, 0, 0), (0x13, 2, 2), (0x14, 0, 0), (0x20, 7, 7), (0x21, 2, 2), (0x22, 2, 2), (0x23, 2, 2),
   (0x24, 1, 1), (0x25, 4, 4), (0x30, 1, 1), (0x31, 1, 1), (0x32, 4, 67), (0x33, 0, 0), (0x34, 1, 1),
   (0x40, 3, 3), (0x41, 0, 0)]

/-- The payload lengths that a command code accepts; none for an unknown code. -/
def acceptedLengths (code : Byte) : Option (Nat × Nat) := commandTable.lookup code

/-! ### What the part sends on the serial link (R118) -/

/-- The four instructions of R118. The spec gives them no codes. -/
inductive LinkInstruction where
  | read | writeEnable | write | readStatus
  deriving DecidableEq, Repr

/-- One thing sent to the device: an instruction, or a byte of an address or of write data. -/
inductive LinkItem where
  | instruction (i : LinkInstruction)
  | byte (b : Byte)
  deriving DecidableEq, Repr

/-- The three bytes of a serial address, most significant first (R118). -/
def addressBytes (addr : Nat) : List Byte := (leBytes 3 addr).reverse

/-- What the part sends to the device in the course of a transaction, in order (R118). -/
def TxOp.sent : TxOp → List LinkItem
  | .read addr _ => .instruction .read :: (addressBytes addr).map .byte
  | .writeEnable => [.instruction .writeEnable]
  | .write addr data => .instruction .write :: (addressBytes addr ++ data).map .byte
  | .readStatus => [.instruction .readStatus]

/-! ### Frames -/

/-- A frame whose bytes before its check byte are all there: command code, payload length, payload (R155). -/
def frameOf : List Byte → Option Frame
  | code :: len :: payload => if payload.length = len.toNat then some ⟨code, payload⟩ else none
  | [_] | [] => none

/-- A data byte belongs to the frame before its check byte and does not discard it: the command code, a payload
length of at most 72, a byte of the payload (R155, R156). -/
def frameTakes (bytes : List Byte) (b : Byte) : Bool :=
  match bytes with
  | [] => true
  | [_] => b.toNat ≤ Config.payloadMax
  | _ :: len :: payload => payload.length < len.toNat

/-- A response frame with its check byte (R164). -/
def Response.bytes (r : Response) : List Byte :=
  let body := r.status.code :: r.code :: r.seq :: byte r.payload.length :: r.payload
  body ++ [crc8 body]

/-- The NOT_READY frame: one byte, no check byte (10.1). -/
def notReadyFrame : List Byte := [0xA5]

/-! ### Map entries and stored structures -/

/-- The eleven bytes of a map entry (10.3). -/
def MapEntry.bytes (e : MapEntry) : List Byte :=
  leBytes 3 e.base ++ leBytes 3 e.size ++ [byte (segNum e.seg)] ++ leBytes 2 e.offset ++
    [e.wpol.code, e.apol.code]

/-- An index byte and a map entry, as MAP_WRITE and the boot record carry them (10.2, 10.6). -/
def rawEntry (bs : List Byte) : RawEntry :=
  { index := field bs 0 1, base := field bs 1 3, size := field bs 4 3, seg := field bs 7 1,
    offset := field bs 8 2, wpol := field bs 10 1, apol := field bs 11 1 }

/-- The catalog magic (10.6). -/
def catalogMagic : Nat := 0x43C7A15E
/-- The boot record magic (10.6). -/
def bootMagic : Nat := 0x5B2E90C4
/-- The catalog header's length (10.6). -/
def headerBytes : Nat := 7
/-- A descriptor's length (10.6). -/
def descriptorBytes : Nat := 10

/-- A catalog descriptor (10.6): id, pinned flag, length, image address, CRC. -/
structure Descriptor where
  id : Byte
  pinned : Bool
  length : Nat
  image : Nat
  crc : BitVec 16
  deriving DecidableEq, Repr

/-- The descriptor in ten bytes; flag bits other than pinned are ignored (R137). -/
def descriptor (bs : List Byte) : Descriptor :=
  { id := byteAt bs 0, pinned := (byteAt bs 1).getLsbD 0, length := field bs 2 3,
    image := field bs 5 3, crc := BitVec.ofNat 16 (field bs 8 2) }

/-- Bytes cut into `count` pieces of `n`, in order. -/
def pieces (n : Nat) : Nat → List Byte → List (List Byte)
  | 0, _ => []
  | count + 1, bs => bs.take n :: pieces n count (bs.drop n)

/-! ### Event records (10.5) -/

/-- A segment id, or 00h for none. -/
def segByte : Option SegId → Byte
  | none => 0x00
  | some i => byte (segNum i)

/-- The kind code of an event. -/
def Event.kind : Event → Byte
  | .fillRequest _ _ _ _ => 0x01 | .fillDone _ _ _ => 0x02 | .fillFailed _ _ _ => 0x03
  | .evicted _ _ _ => 0x04 | .readFault _ _ _ _ _ => 0x05 | .writeFault _ _ _ _ => 0x06
  | .dnStalled _ _ _ => 0x07 | .catalogConflict _ _ => 0x08 | .startupDone _ _ _ _ => 0x09
  | .eventsLost _ => 0x0A

/-- The field bytes of an event, from offset 2 of its record. -/
def Event.fields : Event → List Byte
  | .fillRequest seg length crc held =>
      byte (segNum seg) :: leBytes 3 length ++ leBytes 2 crc.toNat ++ [byte held]
  | .fillDone seg origin replayed => [byte (segNum seg), origin.eventCode, byte replayed]
  | .fillFailed seg reason errored => [byte (segNum seg), reason.code, byte errored]
  | .evicted seg blocks cause => byte (segNum seg) :: leBytes 2 blocks ++ [byte (segNum cause)]
  | .readFault tag addr len reason seg =>
      byte tag.val :: leBytes 3 addr ++ [byte len, reason.code, segByte seg]
  | .writeFault addr len reason seg => leBytes 3 addr ++ [byte len, reason.code, segByte seg]
  | .dnStalled none errored failed => leBytes 3 0 ++ [0, byte errored, if failed then 1 else 0]
  | .dnStalled (some (addr, len)) errored failed =>
      leBytes 3 addr ++ [byte len, byte errored, if failed then 1 else 0]
  | .catalogConflict id reason => [id, reason.code]
  | .startupDone outcome generation failures discarded =>
      outcome.code :: leBytes 2 generation.toNat ++ [byte failures, byte discarded]
  | .eventsLost count => [byte count]

/-- An event record's sixteen bytes, 00h beyond its last field (R184). -/
def EventRec.bytes (r : EventRec) : List Byte :=
  let bs := r.event.kind :: r.seq :: r.event.fields
  bs ++ List.replicate (16 - bs.length) 0

end Sys2Proof.Machine
end

