-- ==== Sys2Proof/Machine/Ops.lean ====
section
/-! DEFINITION. The operations that several commands share: overlay memory, blocks and residence, events,
outputs, command buffers, loader arrival and withdrawal. -/

namespace Sys2Proof.Machine

/-! ### Overlay memory as a list of cells -/

/-- What a key reads as; a key not listed reads 00h (log 8). -/
def Memory.read : List Host.Cell → Nat → Byte
  | [], _ => 0
  | c :: m, k => if c.1 = k then c.2 else Memory.read m k

/-- A memory with one byte changed, in canonical form again. -/
def Memory.write : List Host.Cell → Nat → Byte → List Host.Cell
  | [], k, v => if v = 0 then [] else [(k, v)]
  | c :: m, k, v =>
    if k < c.1 then (if v = 0 then c :: m else (k, v) :: c :: m)
    else if k = c.1 then (if v = 0 then m else (k, v) :: m)
    else c :: Memory.write m k v

/-- The canonical form: keys strictly rising, no listed byte equal to what an unlisted one reads as. -/
abbrev Memory.wf (m : List Host.Cell) : Prop :=
  m.Pairwise (fun c d => c.1 < d.1) ∧ ∀ c ∈ m, c.2 ≠ 0

/-- The overlay memory key of a segment byte offset: block-list entry (o div 256), byte (o mod 256) (R23);
none where the block list does not reach. -/
def blockKey (blocks : List Block) (o : Nat) : Option Nat :=
  (blocks[o / 256]?).map fun b => b.val * 256 + o % 256

/-- One byte of a segment's contents; outside the block list a free value (log 9). -/
def overlayByte (sram : List Host.Cell) (blocks : List Block) (o : Nat) : Byte :=
  match blockKey blocks o with
  | some k => Memory.read sram k
  | none => Config.strayByte o

/-- `len` bytes of a segment's contents from offset `o` upward. -/
def overlayBytes (sram : List Host.Cell) (blocks : List Block) (o len : Nat) : List Byte :=
  (List.range len).map fun i => overlayByte sram blocks (o + i)

/-- Bytes stored into a segment's blocks from offset `o` upward; nothing outside the block list (log 9). -/
def overlayStore (blocks : List Block) : List Byte → Nat → List Host.Cell → List Host.Cell
  | [], _, sram => sram
  | b :: bs, o, sram =>
    overlayStore blocks bs (o + 1)
      (match blockKey blocks o with
       | some k => Memory.write sram k b
       | none => sram)

/-! ### The segment table -/

/-- A segment's record; none is UNDECLARED. -/
def Store.seg (st : Store) (i : SegId) : Option SegRecord := st.segs[i]

/-- The table with one record replaced. -/
def Store.setSeg (st : Store) (i : SegId) (r : Option SegRecord) : Store :=
  { st with segs := st.segs.set i.val r i.isLt }

/-- The table with a declared segment's record changed; an UNDECLARED one stays so. -/
def Store.update (st : Store) (i : SegId) (f : SegRecord → SegRecord) : Store :=
  st.setSeg i ((st.seg i).map f)

/-- A segment's block list; empty when UNDECLARED. -/
def Store.blocksOf (st : Store) (i : SegId) : List Block :=
  match st.seg i with
  | some r => r.blocks
  | none => []

/-- A segment's declared length; 0 when UNDECLARED. -/
def Store.lengthOf (st : Store) (i : SegId) : Nat :=
  match st.seg i with
  | some r => r.length
  | none => 0

/-- A segment's expected CRC. -/
def Store.crcOf (st : Store) (i : SegId) : BitVec 16 :=
  match st.seg i with
  | some r => r.crc
  | none => 0

/-- A segment's held count; 0 when UNDECLARED. -/
def Store.heldOf (st : Store) (i : SegId) : Nat :=
  match st.seg i with
  | some r => r.held
  | none => 0

/-! ### Blocks, residence, allocation (R24, R36 to R38) -/

/-- A segment's blocks join the free list at its tail in block-list order, and its block list becomes
empty (R24). -/
def Store.freeBlocks (st : Store) (i : SegId) : Store :=
  { st with free := st.free ++ st.blocksOf i }.update i fun r => { r with blocks := [] }

/-- A segment leaves the residence list; the order of the others is kept (R36). -/
def Store.leaveResidence (st : Store) (i : SegId) : Store :=
  { st with residence := st.residence.erase i }

/-- A touch: the segment moves to the most-recently-used end (R36). -/
def Store.touch (st : Store) (i : SegId) : Store :=
  { st with residence := st.residence.erase i ++ [i] }

/-- RESIDENT, not pinned and not dirty (R37). -/
def Store.evictable (st : Store) (i : SegId) : Bool :=
  match st.seg i with
  | some r => r.state == .resident && !r.pinned && !r.dirty
  | none => false

/-- Eviction of one segment (R38). -/
def Store.evict (st : Store) (i : SegId) : Store :=
  ((st.freeBlocks i).leaveResidence i).update i fun r => { r with state := .absent }

/-- The collected segments evicted one after another until the free count reaches `n` (R37 step 3), with
the EVICTED events in eviction order (R38). -/
def Store.evictUntil (n : Nat) (cause : SegId) : List SegId → Store → Store × List Event
  | [], st => (st, [])
  | i :: rest, st =>
    if n ≤ st.free.length then (st, [])
    else
      let r := Store.evictUntil n cause rest (st.evict i)
      (r.1, .evicted i (st.blocksOf i).length cause :: r.2)

/-- The evictable segments in residence order (R37 step 2). -/
def Store.candidates (st : Store) : List SegId := st.residence.filter st.evictable

/-- The reachable count (R37 step 2). -/
def Store.reachable (st : Store) : Nat :=
  st.free.length + (st.candidates.map fun i => (st.blocksOf i).length).sum

/-- An allocation of `n` blocks for segment `cause` (R37): the blocks taken from the head of the free list,
the store after it and the EVICTED events; none is NO_SPACE. With enough free nothing is evicted. -/
def Store.allocate (st : Store) (n : Nat) (cause : SegId) : Option (List Block × Store × List Event) :=
  if n ≤ st.reachable then
    let r := Store.evictUntil n cause st.candidates st
    some (r.1.free.take n, { r.1 with free := r.1.free.drop n }, r.2)
  else none

/-! ### Events and outputs -/

/-- R175: the event takes the next sequence number and is stored at the tail, or is counted as lost. -/
def EventQueue.post (q : EventQueue) (e : Event) : EventQueue :=
  if q.lost = 0 ∧ q.records.length < Config.eventCapacity then
    { records := q.records ++ [⟨e, q.seq⟩], lost := 0, seq := q.seq + 1 }
  else { records := q.records, lost := min 255 (q.lost + 1), seq := q.seq + 1 }

/-- A run of posts of one event of a block, in order (R176). -/
def EventQueue.postAll (q : EventQueue) (es : List Event) : EventQueue := es.foldl EventQueue.post q

/-- An event posted. -/
def State.post (s : State) (e : Event) : State := { s with events := s.events.post e }

/-- Several events posted in order. -/
def State.postAll (s : State) (es : List Event) : State := { s with events := s.events.postAll es }

/-- Something put out. -/
def State.emit (s : State) (o : Output) : State := { s with outputs := s.outputs ++ [o] }

/-- Several things put out in order. -/
def State.emitAll (s : State) (os : List Output) : State := { s with outputs := s.outputs ++ os }

/-! ### Tags and held reads -/

/-- The set of outstanding tags with some of them freed. -/
def freeTags (tags freed : List Tag) : List Tag := tags.filter fun t => !freed.contains t

/-- The held reads of a segment, in arrival order. -/
def Port.heldFor (p : Port) (i : SegId) : List HeldRead := p.held.filter fun h => h.seg == i

/-- The port without a segment's held reads, their tags free (R69, R70). -/
def Port.dropHeld (p : Port) (i : SegId) : Port :=
  { p with
    held := p.held.filter fun h => !(h.seg == i)
    tags := freeTags p.tags ((p.heldFor i).map (·.tag)) }

/-- The held reads of a segment are answered ERROR(tag) in arrival order and leave the table (R70), and the
segment's held count becomes 0 (R30). -/
def State.errorHeld (s : State) (i : SegId) : State :=
  { s with
    outputs := s.outputs ++ (s.port.heldFor i).map fun h => .errorTag h.tag
    port := s.port.dropHeld i
    store := s.store.update i fun r => { r with held := 0 } }

/-! ### The serial link -/

/-- A transaction begins: CS_N falls, at the LINK_DIVIDER in force (R118, R119). -/
def State.beginTx (s : State) (op : TxOp) : State :=
  { s with
    ctl := { s.ctl with tx := some ⟨op, s.ctl.divider⟩ }
    outputs := s.outputs ++ [.begins ⟨op, s.ctl.divider⟩] }

/-- The link becomes idle: no transaction, holder NONE (R127). -/
def State.freeLink (s : State) : State :=
  { s with ctl := { s.ctl with tx := none, holder := .none } }

/-- Client L offers the loader's head request while it is not yet granted (R122). -/
def Controller.offersL (c : Controller) : Bool :=
  match c.loader with
  | r :: _ => !r.granted
  | [] => false

/-- What the loader answers when a request arrives (R123). -/
inductive Arrival where
  | range | stalled | queued
  deriving DecidableEq, Repr

/-- A request arriving at the loader (R123): refused, or appended at the tail. -/
def Controller.arrive (c : Controller) (memSize : Nat) (client : Requester) (addr len : Nat) :
    Arrival × Controller :=
  if memSize < addr + len then (.range, c)
  else if c.link = .stalled then (.stalled, c)
  else (.queued, { c with loader := c.loader ++ [⟨client, addr, len, false, false⟩] })

/-- The fill engine withdraws its request (R123): removed if not yet granted, otherwise its data will be
dropped. When L is left with no offer the aging count becomes 0 (R125). -/
def Controller.withdrawFill (c : Controller) : Controller :=
  let loader := c.loader.filterMap fun r =>
    if r.client = .fill ∧ r.withdrawn = false then
      (if r.granted then some { r with withdrawn := true } else none)
    else some r
  let c' := { c with loader := loader }
  { c' with aging := if c.offersL && !c'.offersL then 0 else c.aging }

/-- The bytes from an address to the end of its window, or to a nearer end (R82, R139). -/
def windowPart (addr stop : Nat) : Nat := min (Config.windowBytes - addr % Config.windowBytes) (stop - addr)

/-! ### Command buffers and responses -/

/-- The contents of a command buffer. -/
def Mgmt.buf (m : Mgmt) : BufId → CmdBuffer
  | .A => m.bufA
  | .B => m.bufB

/-- A command buffer with other contents. -/
def Mgmt.setBuf (m : Mgmt) (b : BufId) (x : CmdBuffer) : Mgmt :=
  match b with
  | .A => { m with bufA := x }
  | .B => { m with bufB := x }

/-- A frame is being received into the buffer. -/
def CmdBuffer.isReceiving : CmdBuffer → Bool
  | .receiving _ => true
  | .empty | .pending _ _ _ | .executing _ _ | .answered _ => false

/-- The other buffer. -/
def BufId.other : BufId → BufId
  | .A => .B
  | .B => .A

/-- The response is placed in an EXECUTING buffer, which becomes ANSWERED, and the executor becomes IDLE
(R160, R164). -/
def Mgmt.respond (m : Mgmt) (b : BufId) (status : Status) (payload : List Byte) : Mgmt :=
  match m.buf b with
  | .executing f seq =>
    { m.setBuf b (.answered ⟨status, f.code, seq, payload⟩) with executor := .idle, scan := [] }
  | _ => m

/-- The response is placed. -/
def State.respond (s : State) (b : BufId) (status : Status) (payload : List Byte) : State :=
  { s with mgmt := s.mgmt.respond b status payload }

/-- The buffer and payload of the command that the executor has handed to its owner, if its code is the
one asked for (R160). -/
def State.handed (s : State) (code : Byte) : Option (BufId × List Byte) :=
  match s.mgmt.executor with
  | .busy b .handed =>
    match s.mgmt.buf b with
    | .executing f _ => if f.code = code then some (b, f.payload) else none
    | _ => none
  | _ => none

/-- What an owner returns: the state after its event, a status and a response payload (R160). -/
structure Reply where
  state : State
  status : Status
  payload : List Byte

/-- A refusal or an OK that changes nothing. -/
def Reply.unchanged (s : State) (status : Status) (payload : List Byte := []) : Reply :=
  { state := s, status := status, payload := payload }

/-- A command carried out by its owner as one event, its response placed in that same event (R160). Where
the executor has handed over no command of this code the event cannot happen and nothing changes (log 2). -/
def runCommand (code : Byte) (owner : List Byte → State → Reply) (s : State) :
    Host.Outcome State Fault Refusal :=
  match s.handed code with
  | some (b, payload) =>
    let r := owner payload s
    .next (r.state.respond b r.status r.payload)
  | none => .next s

end Sys2Proof.Machine
end

