-- ==== Sys2Proof/Machine/Operands.lean ====
section
/-! DEFINITION. The arguments of the management commands, read from their payloads (10.2), and the
reserved-bit check (R183). -/

namespace Sys2Proof.Machine

/-- The reserved bits of a control byte are 0: its value is 00h or 01h (R183). -/
def controlOk (b : Byte) : Bool := b.toNat ≤ 1

/-- The argument in bit 0 of a control byte. -/
def controlBit (b : Byte) : Bool := b.getLsbD 0

/-- SET_PARAM: identifier and value. -/
def setParamArgs (p : List Byte) : Nat × Nat := (field p 0 1, field p 1 2)

/-- A command whose first byte is a segment id. -/
def idArg (p : List Byte) : Nat := field p 0 1

/-- SEG_DECLARE: declared length. -/
def declareLength (p : List Byte) : Nat := field p 1 3

/-- SEG_DECLARE: expected CRC. -/
def declareCrc (p : List Byte) : BitVec 16 := BitVec.ofNat 16 (field p 4 2)

/-- SEG_READ: offset and count. -/
def segReadArgs (p : List Byte) : Nat × Nat := (field p 1 2, field p 3 1)

/-- FILL_DATA: offset and data bytes. -/
def fillDataArgs (p : List Byte) : Nat × List Byte := (field p 0 3, p.drop 3)

/-- CATALOG_LOAD: catalog address. -/
def catalogAddress (p : List Byte) : Nat := field p 0 3

/-- The entry that an index and arguments describe, when every check of R10 passes. -/
def RawEntry.check (r : RawEntry) : Option (MapIndex × MapEntry) :=
  if h : r.index < 32 then
    match segId? r.seg, writePolicy? r.wpol, absencePolicy? r.apol with
    | some seg, some wpol, some apol =>
      if r.base % 256 = 0 ∧ r.size % 256 = 0 ∧ 256 ≤ r.size ∧ r.size ≤ 65536 ∧
          r.base + r.size ≤ 16777216 ∧ r.offset % 256 = 0 ∧ r.offset + r.size ≤ 65536 then
        some (⟨r.index, h⟩, ⟨r.base, r.size, seg, r.offset, wpol, apol⟩)
      else none
    | _, _, _ => none
  else none

end Sys2Proof.Machine
end

