-- ==== Sys2Proof/Machine/Events.lean ====
section
/-! DEFINITION. EVENT_READ and the EVENTS_LOST record (file 09). -/

namespace Sys2Proof.Machine

/-- An EVENTS_LOST record (R172). -/
def EventRec.isLost (r : EventRec) : Bool :=
  match r.event with
  | .eventsLost _ => true
  | _ => false

/-- The EVENTS_LOST record is appended where R177 requires it. -/
def EventQueue.appendLost (q : EventQueue) : EventQueue :=
  if 0 < q.lost ∧ q.records.any EventRec.isLost = false then
    { records := q.records ++ [⟨.eventsLost q.lost, q.seq⟩], lost := 0, seq := q.seq + 1 }
  else q

/-- Up to `max` records removed from the head, and the EVENTS_LOST record appended if required (R178). -/
def EventQueue.take (q : EventQueue) (max : Nat) : EventQueue × List EventRec :=
  ({ q with records := q.records.drop max }.appendLost, q.records.take max)

/-- EVENT_READ at the event queue (R178, R184). -/
def ownEventRead (p : List Byte) (s : State) : Reply :=
  let max := field p 0 1
  if max = 0 ∨ 4 < max then .unchanged s .badArgument
  else
    let r := s.events.take max
    { state := { s with events := r.1 }, status := .ok
      payload := byte r.2.length :: (r.2.map EventRec.bytes).flatten }

/-- EVENT_READ (code 05h). -/
def execEventRead (s : State) : Host.Outcome State Fault Refusal := runCommand 0x05 ownEventRead s

end Sys2Proof.Machine
end

