-- ==== Sys2Proof/Machine/Flags.lean ====
section
/-! DEFINITION. What is computed from the state: the pins ATTN_N and CS_N, STARTING, the window check, the
hazard answer and the arbiter's offers. -/

namespace Sys2Proof.Machine

/-- ATTN_N is driven low while the event queue holds at least one record (R165). -/
def State.attnLow (s : State) : Bool := !s.events.records.isEmpty

/-- CS_N is low while a transaction is in flight (R118). -/
def State.csLow (s : State) : Bool := s.ctl.tx.isSome

/-- What the part sends to the device in the transaction in flight (R118). -/
def State.linkSent (s : State) : List LinkItem :=
  match s.ctl.tx with
  | some t => t.op.sent
  | none => []

/-- The part is STARTING while the stage is anything other than RUN (R143). -/
def State.starting (s : State) : Bool := s.startup.stage != .run

/-- A request crosses a window when (address mod 32) + length exceeds 32 (R51). -/
def crossesWindow (addr len : Nat) : Bool := Config.windowBytes < addr % Config.windowBytes + len

/-- Two ranges overlap when each begins before the other ends (R15, R114). -/
def overlaps (a alen b blen : Nat) : Bool := a < b + blen && b < a + alen

/-- The hazard answer for the read-queue head while it is in LINK_WAIT (R114): some write-queue entry,
PENDING or IN_FLIGHT, overlaps it. -/
def State.hazardBlocked (s : State) : Bool :=
  match s.port.readQueue with
  | r :: _ => !r.active && s.write.queue.any fun w => overlaps r.addr r.len w.addr w.data.length
  | [] => false

/-- Client R offers the read-queue head while it is in LINK_WAIT (R122). -/
def State.offersR (s : State) : Bool :=
  match s.port.readQueue with
  | r :: _ => !r.active
  | [] => false

/-- Client W offers the write-queue head while it is PENDING (R122). -/
def State.offersW (s : State) : Bool :=
  match s.write.queue with
  | w :: _ => !w.inFlight
  | [] => false

/-- The busy flag of a status byte: its least significant bit, the others ignored (R118). -/
def busyFlag (status : Byte) : Bool := status.getLsbD 0

end Sys2Proof.Machine
end

