-- ==== Sys2Proof/Machine/Map.lean ====
section
/-! DEFINITION. The map unit (file 01): lookup, the five map commands and the commit. -/

namespace Sys2Proof.Machine

/-! ### Banks and lookup -/

/-- A bank with one entry replaced. -/
def Bank.put (bank : Bank) (i : MapIndex) (e : Option MapEntry) : Bank := bank.set i.val e i.isLt

/-- A request's range lies inside a valid entry's range (R4). -/
def MapEntry.contains (e : MapEntry) (addr len : Nat) : Bool :=
  e.base ≤ addr && addr + len ≤ e.base + e.size

/-- The hit that the entry at an index gives a request, if it is valid and contains it (R4, R5). -/
def Bank.hitAt (bank : Bank) (addr len : Nat) (i : MapIndex) : Option Hit :=
  match bank[i] with
  | some e =>
    if e.contains addr len then some ⟨i, e.seg, addr - e.base + e.offset, e.wpol, e.apol⟩ else none
  | none => none

/-- Lookup of a request against ACTIVE (R4): a hit, or none for a miss. -/
def MapUnit.lookup (m : MapUnit) (addr len : Nat) : Option Hit :=
  (List.finRange 32).findSome? (m.active.hitAt addr len)

/-- Some valid ACTIVE entry names the segment (R8). -/
def MapUnit.names (m : MapUnit) (seg : SegId) : Bool :=
  (List.finRange 32).any fun i =>
    match m.active[i] with
    | some e => e.seg == seg
    | none => false

/-! ### Commit (R15 to R18) -/

/-- The three commit faults (R15). -/
inductive CommitReason where
  | undeclaredSegment | beyondSegment | overlap
  deriving DecidableEq, Repr

/-- Commit fault codes (10.7). -/
def CommitReason.code : CommitReason → Byte
  | .undeclaredSegment => 0x01 | .beyondSegment => 0x02 | .overlap => 0x03

/-- A commit fault: the failing index, the reason and, for OVERLAP, the other index (R16). -/
structure CommitFault where
  index : MapIndex
  reason : CommitReason
  other : Option MapIndex
  deriving DecidableEq, Repr

/-- Two entries' ranges overlap (R15 note 2). -/
def MapEntry.overlaps (e f : MapEntry) : Bool :=
  Sys2Proof.Machine.overlaps e.base e.size f.base f.size

/-- The lowest index below `i` whose valid entry overlaps entry `e` (R15 note 3). -/
def Bank.overlapBelow (bank : Bank) (i : MapIndex) (e : MapEntry) : Option MapIndex :=
  (List.finRange 32).find? fun j =>
    j.val < i.val &&
      match bank[j] with
      | some f => e.overlaps f
      | none => false

/-- The first of the three checks that the entry at an index fails (R15). -/
def Bank.faultAt (bank : Bank) (st : Store) (i : MapIndex) : Option CommitFault :=
  match bank[i] with
  | none => none
  | some e =>
    match st.seg e.seg with
    | none => some ⟨i, .undeclaredSegment, none⟩
    | some r =>
      if blocksFor r.length * 256 < e.offset + e.size then some ⟨i, .beyondSegment, none⟩
      else
        match bank.overlapBelow i e with
        | some j => some ⟨i, .overlap, some j⟩
        | none => none

/-- Validation of a bank: the first fault in ascending index order, or none (R15). -/
def Bank.validate (bank : Bank) (st : Store) : Option CommitFault :=
  (List.finRange 32).findSome? (bank.faultAt st)

/-- The generation number after a successful commit: one more, from 65535 to 1 (R18). -/
def nextGeneration (g : BitVec 16) : BitVec 16 := if g = 65535#16 then 1 else g + 1

/-- A commit (R15 to R18), of MAP_COMMIT and of start-up (R21): the fault, or the map unit after it. -/
def MapUnit.commit (m : MapUnit) (st : Store) : Except CommitFault MapUnit :=
  match m.shadow.validate st with
  | some f => .error f
  | none => .ok { active := m.shadow, shadow := m.shadow, generation := nextGeneration m.generation }

/-- One entry write into SHADOW with the checks of R10, of MAP_WRITE and of start-up (R21); none is a
failed check. -/
def MapUnit.writeEntry (m : MapUnit) (r : RawEntry) : Option MapUnit :=
  match r.check with
  | some (i, e) => some { m with shadow := m.shadow.put i (some e) }
  | none => none

/-! ### The commands at their owner -/

/-- MAP_WRITE at the map unit (R10). -/
def ownMapWrite (p : List Byte) (s : State) : Reply :=
  match s.map.writeEntry (rawEntry p) with
  | some m => { state := { s with map := m }, status := .ok, payload := [] }
  | none => .unchanged s .badArgument

/-- MAP_CLEAR at the map unit (R12): an index, or FFh for ALL. -/
def ownMapClear (p : List Byte) (s : State) : Reply :=
  if h : idArg p < 32 then
    { state := { s with map := { s.map with shadow := s.map.shadow.put ⟨idArg p, h⟩ none } },
      status := .ok, payload := [] }
  else if idArg p = 255 then
    { state := { s with map := { s.map with shadow := Bank.invalid } }, status := .ok, payload := [] }
  else .unchanged s .badArgument

/-- MAP_COPY at the map unit (R13). -/
def ownMapCopy (_p : List Byte) (s : State) : Reply :=
  { state := { s with map := { s.map with shadow := s.map.active } }, status := .ok, payload := [] }

/-- The MAP_READ response (10.2): bank, index, valid, entry or eleven zero bytes, generation. -/
def mapReadPayload (bank : Bool) (i : MapIndex) (e : Option MapEntry) (g : BitVec 16) : List Byte :=
  [if bank then 1 else 0, byte i.val] ++
    (match e with
     | some e => 1 :: e.bytes
     | none => List.replicate 12 0) ++
    leBytes 2 g.toNat

/-- MAP_READ at the map unit (R14, R183). -/
def ownMapRead (p : List Byte) (s : State) : Reply :=
  if controlOk (byteAt p 0) then
    if h : field p 1 1 < 32 then
      let i : MapIndex := ⟨field p 1 1, h⟩
      let shadow := controlBit (byteAt p 0)
      let bank := if shadow then s.map.shadow else s.map.active
      .unchanged s .ok (mapReadPayload shadow i bank[i] s.map.generation)
    else .unchanged s .badArgument
  else .unchanged s .badArgument

/-- The INVALID_MAP payload (10.2); FFh is no other index. -/
def CommitFault.bytes (f : CommitFault) : List Byte :=
  [byte f.index.val, f.reason.code,
    match f.other with
    | some j => byte j.val
    | none => 0xFF]

/-- MAP_COMMIT at the map unit (R15 to R18). -/
def ownMapCommit (_p : List Byte) (s : State) : Reply :=
  match s.map.commit s.store with
  | .ok m => { state := { s with map := m }, status := .ok, payload := leBytes 2 m.generation.toNat }
  | .error f => .unchanged s .invalidMap f.bytes

/-- MAP_WRITE (code 10h). -/
def execMapWrite (s : State) : Host.Outcome State Fault Refusal := runCommand 0x10 ownMapWrite s
/-- MAP_CLEAR (code 11h). -/
def execMapClear (s : State) : Host.Outcome State Fault Refusal := runCommand 0x11 ownMapClear s
/-- MAP_COPY (code 12h). -/
def execMapCopy (s : State) : Host.Outcome State Fault Refusal := runCommand 0x12 ownMapCopy s
/-- MAP_READ (code 13h). -/
def execMapRead (s : State) : Host.Outcome State Fault Refusal := runCommand 0x13 ownMapRead s
/-- MAP_COMMIT (code 14h). -/
def execMapCommit (s : State) : Host.Outcome State Fault Refusal := runCommand 0x14 ownMapCommit s

end Sys2Proof.Machine
end

