-- ==== Sys2Proof/Machine/HostReads.lean ====
section
/-! DEFINITION. Host reads (file 03): acceptance checks, routing, parking, downstream admission. -/

namespace Sys2Proof.Machine

/-- An ERROR answer at presentation with its READ_FAULT event (R63). -/
def refuseRead (q : ReadRequest) (reason : AccessFault) (seg : Option SegId) (s : State) : State :=
  (s.emit (.answer .error)).post (.readFault q.tag q.addr q.len reason seg)

/-- A segment's id is appended at the fill-queue tail and the segment becomes QUEUED (R76). -/
def State.enqueueFill (s : State) (i : SegId) : State :=
  { s with
    fill := { s.fill with queue := s.fill.queue ++ [i] }
    store := s.store.update i fun r => { r with state := .queued } }

/-- The fill request of a PASS read (R61): made only where the queue has room. -/
def State.requestFill (s : State) (i : SegId) : State :=
  if s.fill.queue.length < Config.fillCapacity then s.enqueueFill i else s

/-- A read admitted to the read queue in LINK_WAIT (R59, R64). -/
def State.admitRead (s : State) (q : ReadRequest) : State :=
  { s.emit (.answer .accepted) with
    port := { s.port with
      tags := q.tag :: s.port.tags
      readQueue := s.port.readQueue ++ [⟨q.tag, q.addr, q.len, false⟩] } }

/-- A read routed downstream (R59), with the fill request of a PASS read on an ABSENT segment (R61). -/
def readDownstream (q : ReadRequest) (seg : Option SegId) (request : Option SegId) (s : State) : State :=
  if s.memSize ≤ q.addr then refuseRead q .range seg s
  else if s.ctl.link = .stalled then refuseRead q .linkStalled seg s
  else
    match request with
    | some i => (s.admitRead q).requestFill i
    | none => s.admitRead q

/-- A read parked in the held-read table (R60 steps 1 and 2, R67, R68). -/
def State.holdRead (s : State) (q : ReadRequest) (h : Hit) : State :=
  { s.emit (.answer .accepted) with
    port := { s.port with
      tags := q.tag :: s.port.tags
      held := s.port.held ++ [⟨q.tag, q.addr, q.len, h.seg, h.offset, s.port.arrival⟩]
      arrival := s.port.arrival + 1 }
    store := s.store.update h.seg fun r => { r with held := r.held + 1 } }

/-- A HOLD read routed to parking (R60). -/
def parkRead (q : ReadRequest) (h : Hit) (absent : Bool) (s : State) : State :=
  if Config.heldCapacity ≤ s.port.held.length then s.emit (.answer .retry)
  else if absent ∧ Config.fillCapacity ≤ s.fill.queue.length then s.emit (.answer .retry)
  else if absent then (s.holdRead q h).enqueueFill h.seg
  else s.holdRead q h

/-- An overlay answer: accepted, DATA(tag) at once, the segment touched (R58). -/
def answerOverlay (q : ReadRequest) (h : Hit) (r : SegRecord) (s : State) : State :=
  { s.emitAll [.answer .accepted, .data q.tag (overlayBytes s.store.sram r.blocks h.offset q.len)] with
    store := s.store.touch h.seg }

/-- A read that hits, routed by the segment state the store reports and the absence policy (R57, R58). -/
def routeHit (q : ReadRequest) (h : Hit) (s : State) : State :=
  match s.store.seg h.seg with
  | none => readDownstream q none none s
  | some r =>
    match r.state, h.apol with
    | .resident, _ => answerOverlay q h r s
    | .absent, .hold => parkRead q h true s
    | .failed, .hold => refuseRead q .segFailed (some h.seg) s
    | _, .hold => parkRead q h false s
    | .absent, .pass => readDownstream q (some h.seg) (some h.seg) s
    | _, .pass => readDownstream q (some h.seg) none s
    | _, .quiet => readDownstream q (some h.seg) none s
    | _, .fault => refuseRead q .mapFault (some h.seg) s

/-- A presentation that has been looked up and waits for its enquiry at the store, or none (R6). -/
def State.setLooked (s : State) (p : Option Looked) : State := { s with port := { s.port with looked := p } }

/-- A read as presented: the acceptance checks, the lookup, and a miss routed downstream; what comes of a hit as
given (R54, R58). -/
def acceptRead (q : ReadRequest) (onHit : Hit → State → State) (s : State) : State :=
  if s.starting then s.emit (.answer .retry)
  else if crossesWindow q.addr q.len then refuseRead q .align none s
  else if q.tag ∈ s.port.tags then s.emit (.answer .retry)
  else
    match s.map.lookup q.addr q.len with
    | none => readDownstream q none none s
    | some h => onHit h s

/-- A part of a read presentation (R57, log 25). The port takes one presentation at a time (R51): one that waits for
its enquiry lets no other begin. -/
def presentRead (q : ReadRequest) (part : PresentPart) (s : State) : State :=
  match part, s.port.looked with
  | .whole, none => acceptRead q (routeHit q) s
  | .lookup, none => acceptRead q (fun h s => s.setLooked (some (.read q h))) s
  | .enquiry, some (.read q' h) => if q' = q then routeHit q h (s.setLooked none) else s
  | .whole, some _ | .lookup, some _ | .enquiry, none | .enquiry, some (.write _ _ _) => s

/-- READ. -/
def execRead (tag : Tag) (addr : Addr) (len : ReadLength) (s : State) : Host.Outcome State Fault Refusal :=
  .next (presentRead ⟨tag, addr.toNat, len.len⟩ len.part s)

end Sys2Proof.Machine
end

