-- ==== Sys2Proof/Machine/Segments.lean ====
section
/-! DEFINITION. The segment store's commands (file 02, section 2.6 and 2.7) and the declaration of catalog
segments. -/

namespace Sys2Proof.Machine

/-- A record just declared (R42, R43). -/
def newRecord (source : Source) (length : Nat) (crc : BitVec 16) (pinned : Bool) : SegRecord :=
  { state := .absent, source := source, length := length, crc := crc, pinned := pinned, dirty := false,
    blocks := [], held := 0, discards := 0, fills := 0, lastFailure := none, origin := none }

/-- SEG_DECLARE at the store (R183, R41, R42). -/
def ownSegDeclare (p : List Byte) (s : State) : Reply :=
  if controlOk (byteAt p 6) then
    match segId? (idArg p) with
    | none => .unchanged s .badArgument
    | some i =>
      if 1 ≤ declareLength p ∧ declareLength p ≤ 65536 then
        match s.store.seg i with
        | some _ => .unchanged s .exists_
        | none =>
          let r := newRecord .host (declareLength p) (declareCrc p) (controlBit (byteAt p 6))
          { state := { s with store := s.store.setSeg i (some r) }, status := .ok, payload := [] }
      else .unchanged s .badArgument
  else .unchanged s .badArgument

/-- The declaration of one catalog segment (R43): the store after it, or none for "exists". -/
def Store.declareCatalog (st : Store) (i : SegId) (d : Descriptor) : Option Store :=
  match st.seg i with
  | some _ => none
  | none => some (st.setSeg i (some (newRecord (.catalog d.image) d.length d.crc d.pinned)))

/-- A segment leaves RESIDENT by SEG_DROP or SEG_RELEASE: its blocks are freed and it leaves the residence
list (R45, R46). -/
def Store.vacate (st : Store) (i : SegId) : Store := (st.freeBlocks i).leaveResidence i

/-- The effect of a SEG_RELEASE that passes R44 (R45). -/
def releaseSegment (i : SegId) (r : SegRecord) (s : State) : State :=
  let st := if r.state = .resident then s.store.vacate i else s.store
  { s with
    store := st.setSeg i none
    fill := { s.fill with queue := if r.state = .queued then s.fill.queue.erase i else s.fill.queue } }

/-- The refusals of SEG_RELEASE after the checks of R41, in order (R44). -/
def releaseRefusal (i : SegId) (r : SegRecord) (force : Bool) (s : State) : Option Status :=
  if s.map.names i then some .inUse
  else if r.state = .requested ∨ r.state = .filling then some .busy
  else if 0 < r.held then some .busy
  else if r.dirty ∧ force = false then some .dirty
  else none

/-- The checks that SEG_RELEASE, SEG_DROP, SEG_PIN share (R183, R41): the control byte at offset 1, the id,
the declaration. -/
def withDeclared (p : List Byte) (s : State) (k : SegId → SegRecord → Reply) : Reply :=
  match segId? (idArg p) with
  | none => .unchanged s .badArgument
  | some i =>
    match s.store.seg i with
    | none => .unchanged s .notFound
    | some r => k i r

/-- SEG_RELEASE at the store (R44, R45). -/
def ownSegRelease (p : List Byte) (s : State) : Reply :=
  if controlOk (byteAt p 1) then
    withDeclared p s fun i r =>
      match releaseRefusal i r (controlBit (byteAt p 1)) s with
      | some st => .unchanged s st
      | none => { state := releaseSegment i r s, status := .ok, payload := [] }
  else .unchanged s .badArgument

/-- SEG_DROP at the store (R46). -/
def ownSegDrop (p : List Byte) (s : State) : Reply :=
  if controlOk (byteAt p 1) then
    withDeclared p s fun i r =>
      match r.state with
      | .resident =>
        if r.dirty ∧ controlBit (byteAt p 1) = false then .unchanged s .dirty
        else
          let st := (s.store.vacate i).update i fun r => { r with state := .absent, dirty := false }
          { state := { s with store := st }, status := .ok, payload := [] }
      | .failed =>
        let st := s.store.update i fun r => { r with state := .absent }
        { state := { s with store := st }, status := .ok, payload := [] }
      | .absent | .queued | .requested | .filling => .unchanged s .wrongState
  else .unchanged s .badArgument

/-- SEG_PIN at the store (R47). -/
def ownSegPin (p : List Byte) (s : State) : Reply :=
  if controlOk (byteAt p 1) then
    withDeclared p s fun i _ =>
      let st := s.store.update i fun r => { r with pinned := controlBit (byteAt p 1) }
      { state := { s with store := st }, status := .ok, payload := [] }
  else .unchanged s .badArgument

/-- A segment's position on the residence list, counted from 1 at the least-recently-used end; 0 when it
is not on it (R48, 10.3). -/
def Store.position (st : Store) (i : SegId) : Nat :=
  if i ∈ st.residence then st.residence.idxOf i + 1 else 0

/-- The SEG_QUERY payload (R48, 10.3). -/
def segQueryPayload (st : Store) (i : SegId) : List Byte :=
  match st.seg i with
  | none =>
    [byte (segNum i), 0x00, 0x00] ++ leBytes 3 0xFFFFFF ++ leBytes 3 0 ++ leBytes 2 0 ++ [0x00] ++
      leBytes 2 0 ++ leBytes 2 0xFFFF ++ [0x00, 0x00] ++ leBytes 2 0 ++ leBytes 2 0 ++ [0x00, 0x00]
  | some r =>
    let source : Byte × Nat := match r.source with
      | .catalog image => (0x01, image)
      | .host => (0x02, 0xFFFFFF)
    let first := match r.blocks with
      | b :: _ => b.val
      | [] => 0xFFFF
    [byte (segNum i), r.state.code, source.1] ++ leBytes 3 source.2 ++ leBytes 3 r.length ++
      leBytes 2 r.crc.toNat ++ [byte ((if r.pinned then 1 else 0) + (if r.dirty then 2 else 0))] ++
      leBytes 2 r.blocks.length ++ leBytes 2 first ++ [byte (st.position i), byte r.held] ++
      leBytes 2 r.discards ++ leBytes 2 r.fills ++
      [match r.lastFailure with
        | some f => f.code
        | none => 0x00,
       originCode r.origin]

/-- SEG_QUERY at the store (R48): answered for every id from 1 to 62. -/
def ownSegQuery (p : List Byte) (s : State) : Reply :=
  match segId? (idArg p) with
  | none => .unchanged s .badArgument
  | some i => .unchanged s .ok (segQueryPayload s.store i)

/-- SEG_READ at the store (R49). -/
def ownSegRead (p : List Byte) (s : State) : Reply :=
  withDeclared p s fun _ r =>
    let (offset, count) := segReadArgs p
    if count = 0 ∨ 64 < count then .unchanged s .badArgument
    else if blocksFor r.length * 256 < offset + count then .unchanged s .badArgument
    else if r.state ≠ .resident then .unchanged s .wrongState
    else .unchanged s .ok (overlayBytes s.store.sram r.blocks offset count)

/-- SEG_DECLARE (code 20h). -/
def execSegDeclare (s : State) : Host.Outcome State Fault Refusal := runCommand 0x20 ownSegDeclare s
/-- SEG_RELEASE (code 21h). -/
def execSegRelease (s : State) : Host.Outcome State Fault Refusal := runCommand 0x21 ownSegRelease s
/-- SEG_DROP (code 22h). -/
def execSegDrop (s : State) : Host.Outcome State Fault Refusal := runCommand 0x22 ownSegDrop s
/-- SEG_PIN (code 23h). -/
def execSegPin (s : State) : Host.Outcome State Fault Refusal := runCommand 0x23 ownSegPin s
/-- SEG_QUERY (code 24h). -/
def execSegQuery (s : State) : Host.Outcome State Fault Refusal := runCommand 0x24 ownSegQuery s
/-- SEG_READ (code 25h). -/
def execSegRead (s : State) : Host.Outcome State Fault Refusal := runCommand 0x25 ownSegRead s

end Sys2Proof.Machine
end

