-- ==== Sys2Proof/Machine/Fills.lean ====
section
/-! DEFINITION. The fill engine (file 04): head taking, catalog and host loading, timers, PRELOAD, the ends
of a fill. -/

namespace Sys2Proof.Machine

/-! ### What the engine is doing -/

/-- The current segment (R78). -/
def Engine.current : Engine → Option SegId
  | .idle => none
  | .awaitHost i _ => some i
  | .loadingHost i _ _ _ _ => some i
  | .loadingCatalog i _ _ _ => some i

/-- The current fill's origin (R78). -/
def Engine.origin : Engine → Option Origin
  | .idle => none
  | .awaitHost _ _ => some .queue
  | .loadingHost _ o _ _ _ => some o
  | .loadingCatalog _ o _ _ => some o

/-- Bytes received; 0 where the item is absent (log 18). -/
def Engine.received : Engine → Nat
  | .loadingHost _ _ n _ _ => n
  | .loadingCatalog _ _ n _ => n
  | .idle | .awaitHost _ _ => 0

/-- The engine becomes IDLE and last end records the segment and the outcome (R95, R96, R98). Its timers
and counters are gone with the state that held them. -/
def State.endFill (s : State) (i : SegId) (outcome : FillOutcome) : State :=
  { s with fill := { s.fill with engine := .idle, lastEnd := some (i, outcome) } }

/-- The engine enters another state. -/
def State.setEngine (s : State) (e : Engine) : State := { s with fill := { s.fill with engine := e } }

/-- The state code of a segment, 00h for UNDECLARED (10.7). -/
def Store.stateCode (st : Store) (i : SegId) : Byte :=
  match st.seg i with
  | some r => r.state.code
  | none => 0x00

/-! ### The ends of a fill -/

/-- The store's part of a failure (R34 steps 1 to 4). -/
def Store.failSegment (st : Store) (i : SegId) (reason : FailReason) : Store :=
  (st.freeBlocks i).update i fun r =>
    { r with state := .failed, lastFailure := some reason, origin := none }

/-- A fill fails (R96): store, held reads, event, last end, IDLE, in that order. -/
def failFill (i : SegId) (reason : FailReason) (s : State) : State :=
  ((({ s with store := s.store.failSegment i reason }).errorHeld i).post
    (.fillFailed i reason (s.port.heldFor i).length)).endFill i (.failed reason)

/-- The store's part of a verified fill (R32): pad bytes 00h, RESIDENT, fill count, most recently used,
held count 0. -/
def Store.verify (st : Store) (i : SegId) : Store :=
  (({ st with
      sram := overlayStore (st.blocksOf i)
        (List.replicate ((st.blocksOf i).length * 256 - st.lengthOf i) 0) (st.lengthOf i) st.sram }).update i
    fun r => { r with state := .resident, origin := none, fills := min 65535 (r.fills + 1), held := 0 }).touch i

/-- The held reads of a segment are answered from the overlay in arrival order and leave the table (R69).
The segment is at the most-recently-used end already, so the touches change nothing (R32 step 5). -/
def State.replayHeld (s : State) (i : SegId) : State :=
  { s with
    outputs := s.outputs ++ (s.port.heldFor i).map fun h =>
      .data h.tag (overlayBytes s.store.sram (s.store.blocksOf i) h.offset h.len)
    port := s.port.dropHeld i }

/-- A fill is complete (R95). -/
def completeFill (i : SegId) (origin : Origin) (s : State) : State :=
  ((({ s with store := s.store.verify i }).replayHeld i).post
    (.fillDone i origin (s.port.heldFor i).length)).endFill i .done

/-- The state to which the undo of a direct fill returns a segment (R35). -/
def Prior.state : Prior → SegState
  | .absent => .absent
  | .failed => .failed

/-- The store's part of an undo (R35). -/
def Store.undoFill (st : Store) (i : SegId) (prior : Prior) : Store :=
  (st.freeBlocks i).update i fun r => { r with state := prior.state, origin := none }

/-- A direct fill undone by FILL_ABORT (R98), with the count of reads errored. -/
def undoFill (i : SegId) (prior : Prior) (s : State) : State × Nat :=
  let s1 := { s with store := s.store.undoFill i prior }
  if s.store.heldOf i = 0 then (s1.endFill i .undone, 0)
  else if s.fill.queue.length < Config.fillCapacity then ((s1.enqueueFill i).endFill i .undone, 0)
  else
    let n := (s.port.heldFor i).length
    (((s1.errorHeld i).post (.fillFailed i .aborted n)).endFill i (.failed .aborted), n)

/-! ### Starting a fill -/

/-- A segment enters FILLING with the blocks an allocation granted (R31, R27), its EVICTED events posted. -/
def State.enterFilling (s : State) (i : SegId) (origin : Origin) (bs : List Block) (st : Store)
    (evs : List Event) : State :=
  ({ s with store := st.update i fun r =>
      { r with state := .filling, blocks := bs, origin := some origin } }).postAll evs

/-- The serial address of a catalog segment's image. -/
def Store.imageOf (st : Store) (i : SegId) : Nat :=
  match st.seg i with
  | some r =>
    match r.source with
    | .catalog image => image
    | .host => 0
  | none => 0

/-- The next chunk of a catalog fill is handed to the loader (R82). The loader refuses none that a run
brings it (log 16). -/
def State.requestChunk (s : State) : State :=
  match s.fill.engine with
  | .loadingCatalog i _ n _ =>
    let addr := s.store.imageOf i + n
    let len := windowPart addr (s.store.imageOf i + s.store.lengthOf i)
    { s with ctl := (s.ctl.arrive s.memSize .fill addr len).2 }
  | .idle | .awaitHost _ _ | .loadingHost _ _ _ _ _ => s

/-- The three checks of R80 and the start of a catalog fill, of either origin (R80, R85). -/
def startCatalogFill (i : SegId) (r : SegRecord) (image : Nat) (origin : Origin) (s : State) : State :=
  if s.ctl.link = .stalled then failFill i .dnStalled s
  else if s.memSize < image + r.length then failFill i .length s
  else
    match s.store.allocate (blocksFor r.length) i with
    | none => failFill i .noSpace s
    | some (bs, st, evs) =>
      ((s.enterFilling i origin bs st evs).setEngine (.loadingCatalog i origin 0 crc16Init)).requestChunk

/-- A host segment at the head: REQUESTED, AWAIT_HOST, FILL_REQUEST, the start timer (R79). -/
def awaitHost (i : SegId) (r : SegRecord) (s : State) : State :=
  (({ s with store := s.store.update i fun r =>
      { r with state := .requested, origin := some .queue } }).setEngine
        (.awaitHost i s.fill.startTimeout)).post (.fillRequest i r.length r.crc r.held)

/-- The engine, IDLE, takes the head of a non-empty fill queue (R79). -/
def takeHead (s : State) : State :=
  match s.fill.engine, s.fill.queue with
  | .idle, i :: rest =>
    let s1 := { s with fill := { s.fill with queue := rest } }
    match s.store.seg i with
    | some r =>
      match r.source with
      | .host => awaitHost i r s1
      | .catalog image => startCatalogFill i r image .queue s1
    | none => s1
  | _, _ => s

/-- Host loading begins, or its allocation is refused (R87). -/
def beginHostFill (i : SegId) (origin : Origin) (s : State) : Reply :=
  let n := blocksFor (s.store.lengthOf i)
  match s.store.allocate n i with
  | none => { state := failFill i .noSpace s, status := .ok, payload := 0x01 :: leBytes 2 0 }
  | some (bs, st, evs) =>
    { state := (s.enterFilling i origin bs st evs).setEngine
        (.loadingHost i origin 0 crc16Init s.fill.gapTimeout)
      status := .ok, payload := 0x00 :: leBytes 2 n }

/-! ### Catalog loading -/

/-- What a chunk's arrival leads to. -/
inductive ChunkResult where
  | more | done | failed
  deriving DecidableEq, Repr

/-- A chunk's READ has ended with its bytes (R83). -/
def chunkArrived (data : List Byte) (s : State) : State × ChunkResult :=
  match s.fill.engine with
  | .loadingCatalog i origin n crc =>
    let sram := overlayStore (s.store.blocksOf i) data n s.store.sram
    let s1 := { s with store := { s.store with sram := sram } }
    let n' := n + data.length
    let crc' := crc16Over crc data
    if n' < s.store.lengthOf i then
      ((s1.setEngine (.loadingCatalog i origin n' crc')).requestChunk, .more)
    else if crc' = s.store.crcOf i then (completeFill i origin s1, .done)
    else (failFill i .crc s1, .failed)
  | .idle | .awaitHost _ _ | .loadingHost _ _ _ _ _ => (s, .more)

/-- The outstanding chunk is withdrawn from the loader (R84, R99). -/
def State.withdrawChunk (s : State) : State := { s with ctl := s.ctl.withdrawFill }

/-- The engine takes the report of a stall and answers whether a catalog fill failed (R84). -/
def stallFill (s : State) : State × Bool :=
  match s.fill.engine with
  | .loadingCatalog i _ _ _ => (failFill i .dnStalled s.withdrawChunk, true)
  | .idle | .awaitHost _ _ | .loadingHost _ _ _ _ _ => (s, false)

/-! ### The commands at their owner -/

/-- PRELOAD at the engine (R94). -/
def ownPreload (p : List Byte) (s : State) : Reply :=
  withDeclared p s fun i r =>
    match r.state with
    | .resident | .queued | .requested | .filling => .unchanged s .ok [r.state.code]
    | .absent | .failed =>
      if Config.fillCapacity ≤ s.fill.queue.length then .unchanged s .full
      else { state := s.enqueueFill i, status := .ok, payload := [SegState.queued.code] }

/-- FILL_BEGIN at the engine (R86, R87). -/
def ownFillBegin (p : List Byte) (s : State) : Reply :=
  withDeclared p s fun i r =>
    match s.fill.engine with
    | .awaitHost j _ => if j = i then beginHostFill i .queue s else .unchanged s .busy
    | .loadingHost _ _ _ _ _ | .loadingCatalog _ _ _ _ => .unchanged s .busy
    | .idle =>
      match r.state with
      | .absent => beginHostFill i (.direct .absent) s
      | .failed => beginHostFill i (.direct .failed) s
      | .queued | .requested | .filling | .resident => .unchanged s .wrongState

/-- FILL_DATA at the engine (R88). -/
def ownFillData (p : List Byte) (s : State) : Reply :=
  match s.fill.engine with
  | .loadingHost i origin n crc _ =>
    let (offset, data) := fillDataArgs p
    if offset ≠ n then .unchanged s .sequence (leBytes 3 n)
    else if s.store.lengthOf i < offset + data.length then .unchanged s .length (leBytes 3 n)
    else
      let sram := overlayStore (s.store.blocksOf i) data offset s.store.sram
      let n' := n + data.length
      { state := { s with store := { s.store with sram := sram } }.setEngine
          (.loadingHost i origin n' (crc16Over crc data) s.fill.gapTimeout)
        status := .ok, payload := leBytes 3 n' }
  | .idle | .awaitHost _ _ | .loadingCatalog _ _ _ _ => .unchanged s .wrongState

/-- FILL_END at the engine (R89). -/
def ownFillEnd (_p : List Byte) (s : State) : Reply :=
  match s.fill.engine with
  | .loadingHost i origin n crc _ =>
    let tail := leBytes 3 n ++ leBytes 2 crc.toNat
    if n < s.store.lengthOf i then { state := failFill i .length s, status := .ok, payload := 0x01 :: tail }
    else if crc ≠ s.store.crcOf i then { state := failFill i .crc s, status := .ok, payload := 0x02 :: tail }
    else { state := completeFill i origin s, status := .ok, payload := 0x00 :: tail }
  | .idle | .awaitHost _ _ | .loadingCatalog _ _ _ _ => .unchanged s .wrongState

/-- The end that FILL_ABORT gives the fill of the current segment (R97 checks 3 and 4, R99), with the count
of reads errored. -/
def abortFill (i : SegId) (origin : Origin) (s : State) : State × Nat :=
  match origin with
  | .queue => (failFill i .aborted s.withdrawChunk, (s.port.heldFor i).length)
  | .direct prior => undoFill i prior s.withdrawChunk

/-- FILL_ABORT at the engine (R97). -/
def ownFillAbort (p : List Byte) (s : State) : Reply :=
  match segId? (idArg p) with
  | none => .unchanged s .badArgument
  | some i =>
    match s.fill.engine.origin with
    | some origin =>
      if s.fill.engine.current = some i then
        let r := abortFill i origin s
        { state := r.1, status := .ok, payload := [r.1.store.stateCode i, byte r.2] }
      else .unchanged s .wrongState
    | none => .unchanged s .wrongState

/-! ### The commands -/

/-- PRELOAD (code 30h). -/
def execPreload (s : State) : Host.Outcome State Fault Refusal := runCommand 0x30 ownPreload s
/-- FILL_BEGIN (code 31h). -/
def execFillBegin (s : State) : Host.Outcome State Fault Refusal := runCommand 0x31 ownFillBegin s
/-- FILL_DATA (code 32h). -/
def execFillData (s : State) : Host.Outcome State Fault Refusal := runCommand 0x32 ownFillData s
/-- FILL_END (code 33h). -/
def execFillEnd (s : State) : Host.Outcome State Fault Refusal := runCommand 0x33 ownFillEnd s
/-- FILL_ABORT (code 34h). -/
def execFillAbort (s : State) : Host.Outcome State Fault Refusal := runCommand 0x34 ownFillAbort s

/-- TAKE_HEAD (R79). -/
def execTakeHead (s : State) : Host.Outcome State Fault Refusal := .next (takeHead s)

/-- START_TIMER_EXPIRY (R90): a stopped timer does not expire. -/
def execStartTimerExpiry (s : State) : Host.Outcome State Fault Refusal :=
  match s.fill.engine with
  | .awaitHost i _ => .next (failFill i .startTimeout s)
  | .idle | .loadingHost _ _ _ _ _ | .loadingCatalog _ _ _ _ => .next s

/-- GAP_TIMER_EXPIRY (R91): a stopped timer does not expire. -/
def execGapTimerExpiry (s : State) : Host.Outcome State Fault Refusal :=
  match s.fill.engine with
  | .loadingHost i _ _ _ _ => .next (failFill i .dataTimeout s)
  | .idle | .awaitHost _ _ | .loadingCatalog _ _ _ _ => .next s

end Sys2Proof.Machine
end

