-- ==== Sys2Proof/Machine/HostWrites.lean ====
section
/-! DEFINITION. Host writes (file 05): routing, overlay writes, DISCARD, write-queue admission. -/

namespace Sys2Proof.Machine

/-- An ERROR answer to a write with its WRITE_FAULT event (R116). -/
def refuseWrite (addr len : Nat) (reason : AccessFault) (seg : Option SegId) (s : State) : State :=
  (s.emit (.answer .error)).post (.writeFault addr len reason seg)

/-- Write-queue admission (R109), for a miss or a THROUGH hit. -/
def admitWrite (addr : Nat) (data : List Byte) (seg : Option SegId) (s : State) : State :=
  if s.memSize ≤ addr then refuseWrite addr data.length .range seg s
  else if s.ctl.link = .stalled then refuseWrite addr data.length .linkStalled seg s
  else if Config.writeCapacity ≤ s.write.queue.length ∨ s.write.highWater ≤ s.write.queue.length then
    s.emit (.answer .retry)
  else
    { s.emit (.answer .wack) with
      write := { s.write with queue := s.write.queue ++ [⟨addr, data, false⟩] } }

/-- A write under DISCARD: WACK, and the discard count of a declared segment rises (R28, R104, R103). -/
def discardWrite (seg : SegId) (s : State) : State :=
  { s.emit (.answer .wack) with
    store := s.store.update seg fun r => { r with discards := min 65535 (r.discards + 1) } }

/-- The overlay write of R33 on a RESIDENT segment. -/
def Store.overlayWrite (st : Store) (i : SegId) (r : SegRecord) (offset : Nat) (data : List Byte) : Store :=
  (({ st with sram := overlayStore r.blocks data offset st.sram }).update i fun r =>
    { r with dirty := true }).touch i

/-- A write under SHADOW (R105). -/
def shadowWrite (addr : Nat) (data : List Byte) (h : Hit) (s : State) : State :=
  match s.store.seg h.seg with
  | some r =>
    if r.state = .resident then
      { s.emit (.answer .wack) with store := s.store.overlayWrite h.seg r h.offset data }
    else refuseWrite addr data.length .notResident (some h.seg) s
  | none => refuseWrite addr data.length .notResident (some h.seg) s

/-- A write that hits, routed by the write policy and, where the policy needs it, the segment (R102). -/
def routeWriteHit (addr : Nat) (data : List Byte) (h : Hit) (s : State) : State :=
  match h.wpol with
  | .discard => discardWrite h.seg s
  | .through => admitWrite addr data (some h.seg) s
  | .shadow => shadowWrite addr data h s
  | .fault => refuseWrite addr data.length .writeFault (some h.seg) s

/-- The policies whose route asks the segment store (R103). -/
def WritePolicy.enquires : WritePolicy → Bool
  | .discard | .shadow => true
  | .through | .fault => false

/-- The lookup of a write that hits: it waits for its enquiry at the store, or is routed where its policy makes none
(R103, log 25). -/
def lookWriteHit (addr : Nat) (data : List Byte) (h : Hit) (s : State) : State :=
  if h.wpol.enquires then s.setLooked (some (.write addr data h)) else routeWriteHit addr data h s

/-- A write as presented: the acceptance checks, the lookup, and a miss handed to write-queue admission; what comes
of a hit as given (R54, R55, R102). -/
def acceptWrite (addr : Nat) (data : List Byte) (onHit : Hit → State → State) (s : State) : State :=
  if s.starting then s.emit (.answer .retry)
  else if crossesWindow addr data.length then refuseWrite addr data.length .align none s
  else
    match s.map.lookup addr data.length with
    | none => admitWrite addr data none s
    | some h => onHit h s

/-- A part of a write presentation (R103, log 25); one at a time, as for a read (R51). -/
def presentWrite (addr : Nat) (data : List Byte) (part : PresentPart) (s : State) : State :=
  match part, s.port.looked with
  | .whole, none => acceptWrite addr data (routeWriteHit addr data) s
  | .lookup, none => acceptWrite addr data (lookWriteHit addr data) s
  | .enquiry, some (.write addr' data' h) =>
    if addr' = addr ∧ data' = data then routeWriteHit addr data h (s.setLooked none) else s
  | .whole, some _ | .lookup, some _ | .enquiry, none | .enquiry, some (.read _ _) => s

/-- WRITE. -/
def execWrite (addr : Addr) (data : WriteData) (s : State) : Host.Outcome State Fault Refusal :=
  .next (presentWrite addr.toNat data.bytes data.part s)

end Sys2Proof.Machine
end

