-- ==== Sys2Proof/Machine/Startup.lean ====
section
/-! DEFINITION. The catalog loader and the start-up sequencer (file 07), and CATALOG_LOAD. -/

namespace Sys2Proof.Machine

/-! ### The end of start-up -/

/-- The outcome changes only from OK (R143). -/
def State.setOutcome (s : State) (o : StartOutcome) : State :=
  if s.startup.outcome = .ok then { s with startup := { s.startup with outcome := o } } else s

/-- The sequencer enters a stage. -/
def State.setStage (s : State) (g : Stage) : State := { s with startup := { s.startup with stage := g } }

/-- Start-up ends: STARTUP_DONE, the record contents discarded, stage RUN (R151). -/
def endStartup (s : State) : State :=
  let s1 := s.post (.startupDone s.startup.outcome s.map.generation s.startup.failures s.write.resetDiscard)
  { s1 with startup := { s1.startup with
      stage := .run, record := none, bootRead := none, written := 0, committed := false } }

/-! ### The stages' work: one event after another, others coming between (log 20) -/

/-- The entries of the record not yet written (R148). -/
def State.entriesLeft (s : State) : List RawEntry :=
  match s.startup.record with
  | some r => r.entries.drop s.startup.written
  | none => []

/-- The preload ids not yet ended (R149). -/
def State.preloadsLeft (s : State) : List Byte :=
  match s.startup.record with
  | some r => r.preloads.drop s.startup.position
  | none => []

/-- The stage is PRELOAD, or COMMIT where no preload is left (R149). -/
def State.enterPreload (s : State) : State :=
  s.setStage (match s.preloadsLeft with
    | _ :: _ => .preload
    | [] => .commit)

/-- The stage is MAP, or a later one where no entry is left (R148). -/
def State.enterMap (s : State) : State :=
  s.setStage (match s.entriesLeft, s.preloadsLeft with
    | _ :: _, _ => .map
    | [], _ :: _ => .preload
    | [], [] => .commit)

/-- One entry of the record written into SHADOW, or map faulted set (R148, R21). -/
def writeBootEntry (s : State) (e : RawEntry) : State :=
  match s.map.writeEntry e with
  | some m => { s with map := m }
  | none => ({ s with startup := { s.startup with mapFaulted := true } }).setOutcome .badMap

/-- One more entry of the record is behind the sequencer (R148). -/
def State.countEntry (s : State) : State :=
  { s with startup := { s.startup with written := s.startup.written + 1 } }

/-- Stage MAP: the next entry (R148). -/
def mapEvent (s : State) : State :=
  match s.entriesLeft with
  | e :: _ => (writeBootEntry s e).countEntry.enterMap
  | [] => s.enterMap

/-- One preload is over: the position rises, and the failures if it failed (R149). -/
def State.countPreload (s : State) (failed : Bool) : State :=
  { s with startup := { s.startup with
      position := s.startup.position + 1
      failures := s.startup.failures + if failed then 1 else 0 } }

/-- The request for one preload: the state after it, and whether the preload is passed over, not started or
failed at once (`some`, with whether it counts as a failure) or is being loaded (`none`) (R149, R85). -/
def requestPreload (id : Byte) (s : State) : State × Option Bool :=
  match segId? id.toNat with
  | none => (s, some true)
  | some i =>
    match s.store.seg i with
    | none => (s, some true)
    | some r =>
      match r.state, r.source with
      | .resident, _ => (s, some false)
      | .absent, .catalog image =>
        let s1 := startCatalogFill i r image (.direct .absent) s
        (s1, if s1.fill.engine = .idle then some true else none)
      | .failed, .catalog image =>
        let s1 := startCatalogFill i r image (.direct .failed) s
        (s1, if s1.fill.engine = .idle then some true else none)
      | _, _ => (s, some true)

/-- Stage PRELOAD: the next id, requested only of an IDLE engine with an empty fill queue (R149, R85). -/
def preloadEvent (s : State) : State :=
  if s.fill.engine = .idle ∧ s.fill.queue = [] then
    match s.preloadsLeft with
    | id :: _ =>
      match requestPreload id s with
      | (s1, some failed) => (s1.countPreload failed).enterPreload
      | (s1, none) => s1
    | [] => s.enterPreload
  else s

/-- Stage COMMIT: no commit where map faulted is set, otherwise SHADOW into ACTIVE or BAD_MAP (R150). -/
def commitStartup (s : State) : State :=
  let s1 :=
    if s.startup.mapFaulted then s
    else
      match s.map.commit s.store with
      | .ok m => { s with map := m }
      | .error _ => s.setOutcome .badMap
  { s1 with startup := { s1.startup with committed := true } }

/-- The sequencer's next event of its own in stages MAP, PRELOAD and COMMIT; in the others it waits for bytes, for
a poll or for a catalog, or has ended (R148 to R151). -/
def sequencerEvent (s : State) : State :=
  match s.startup.stage with
  | .map => mapEvent s
  | .preload => preloadEvent s
  | .commit => if s.startup.committed then endStartup s else commitStartup s
  | .poll | .record | .catalog | .run => s

/-! ### The catalog loader (R137 to R141) -/

/-- The catalog faults (R140). -/
inductive CatalogFault where
  | range | badMagic | badCount | badCrc
  deriving DecidableEq, Repr

/-- Catalog fault codes (10.7). -/
def CatalogFault.code : CatalogFault → Byte
  | .range => 0x01 | .badMagic => 0x02 | .badCount => 0x03 | .badCrc => 0x04

/-- How the loading of a catalog ends. -/
inductive CatalogResult where
  | ok (declared skipped : Nat)
  | bad (fault : CatalogFault)
  | stalled
  deriving DecidableEq, Repr

/-- The response of a long command is placed (R162). -/
def State.respondLong (s : State) (phase : Phase) (status : Status) (payload : List Byte) : State :=
  match s.mgmt.executor with
  | .busy b p => if p = phase then s.respond b status payload else s
  | .idle => s

/-- The result of a catalog's loading is handed to the sequencer in stage CATALOG, whose stage becomes MAP (R147),
and otherwise placed as CATALOG_LOAD's response (R139 to R141). -/
def catalogEnd (result : CatalogResult) (s : State) : State :=
  let s1 := { s with startup := { s.startup with catalog := none } }
  if s1.startup.stage = .catalog then
    match result with
    | .ok _ _ => s1.enterMap
    | .bad _ | .stalled => (s1.setOutcome .badCatalog).enterMap
  else
    match result with
    | .ok declared skipped => s1.respondLong .catalogLoad .ok [byte declared, byte skipped]
    | .bad fault => s1.respondLong .catalogLoad .badCatalog [fault.code]
    | .stalled => s1.respondLong .catalogLoad .linkStalled []

/-- Bytes of the part being read that have not arrived (R139); none once everything is read. -/
def CatalogPhase.missing : CatalogPhase → Nat
  | .header bs => headerBytes - bs.length
  | .descriptors count _ bs _ => count * descriptorBytes - bs.length
  | .applying _ _ _ => 0

/-- The catalog loader issues its next request (R139), which the loader may refuse at arrival (R123). -/
def requestCatalog (s : State) : State :=
  match s.startup.catalog with
  | some c =>
    match s.ctl.arrive s.memSize .catalog c.next (windowPart c.next (c.next + c.phase.missing)) with
    | (.queued, ctl) => { s with ctl := ctl }
    | (.range, _) => catalogEnd (.bad .range) s
    | (.stalled, _) => catalogEnd .stalled s
  | none => s

/-- The catalog loader's reading moves on and its next request is issued (R139). -/
def readCatalog (c : CatalogRead) (s : State) : State :=
  requestCatalog { s with startup := { s.startup with catalog := some c } }

/-- The reading of a catalog begins (R139). -/
def beginCatalog (addr : Nat) (s : State) : State := readCatalog ⟨addr, .header []⟩ s

/-- One descriptor applied (R141), with the counts declared and skipped. -/
def applyDescriptor (acc : State × Nat × Nat) (bs : List Byte) : State × Nat × Nat :=
  let d := descriptor bs
  let (s, declared, skipped) := acc
  match segId? d.id.toNat with
  | none => (s.post (.catalogConflict d.id .badDescriptor), declared, skipped + 1)
  | some i =>
    if d.length = 0 ∨ 65536 < d.length then
      (s.post (.catalogConflict d.id .badDescriptor), declared, skipped + 1)
    else
      match s.store.declareCatalog i d with
      | some st => ({ s with store := st }, declared + 1, skipped)
      | none => (s.post (.catalogConflict d.id .exists_), declared, skipped + 1)

/-- The next descriptor of an accepted catalog is applied, in descriptor order; with the last the result is OK with
the two counts (R141). -/
def applyNext (s : State) : State :=
  match s.startup.catalog with
  | some ⟨next, .applying (d :: rest) declared skipped⟩ =>
    match applyDescriptor (s, declared, skipped) d, rest with
    | (s1, declared, skipped), [] => catalogEnd (.ok declared skipped) s1
    | (s1, declared, skipped), _ :: _ =>
      { s1 with startup := { s1.startup with catalog := some ⟨next, .applying rest declared skipped⟩ } }
  | some ⟨_, .applying [] declared skipped⟩ => catalogEnd (.ok declared skipped) s
  | some ⟨_, .header _⟩ | some ⟨_, .descriptors _ _ _ _⟩ | none => s

/-- The next event of the catalog loader, where it is applying a catalog, and of the sequencer otherwise. -/
def nextEvent (s : State) : State :=
  match s.startup.catalog with
  | some ⟨_, .applying _ _ _⟩ => applyNext s
  | some ⟨_, .header _⟩ | some ⟨_, .descriptors _ _ _ _⟩ | none => sequencerEvent s

/-- The next `count` of those events, one after another (log 20). -/
def goOn : Nat → State → State
  | 0, s => s
  | n + 1, s => goOn n (nextEvent s)

/-- The header has arrived: magic, then count, then the descriptors (R137, R139). -/
def headerArrived (next : Nat) (bs : List Byte) (s : State) : State :=
  let count := field bs 4 1
  if field bs 0 4 ≠ catalogMagic then catalogEnd (.bad .badMagic) s
  else if count = 0 ∨ 62 < count then catalogEnd (.bad .badCount) s
  else readCatalog ⟨next, .descriptors count (BitVec.ofNat 16 (field bs 5 2)) [] crc16Init⟩ s

/-- The last descriptor byte has arrived: the CRC decides, and the descriptors of an accepted catalog are next to be
applied (R140, R141). -/
def descriptorsArrived (next count : Nat) (headerCrc : BitVec 16) (bs : List Byte) (crc : BitVec 16) (s : State) :
    State :=
  if crc = headerCrc then
    { s with startup := { s.startup with
      catalog := some ⟨next, .applying (pieces descriptorBytes count bs) 0 0⟩ } }
  else catalogEnd (.bad .badCrc) s

/-- Bytes for the catalog loader (R139, R140). -/
def catalogArrived (data : List Byte) (s : State) : State :=
  match s.startup.catalog with
  | some ⟨addr, .header bs⟩ =>
    let bs' := bs ++ data
    let next := addr + data.length
    if bs'.length < headerBytes then
      readCatalog ⟨next, .header bs'⟩ s
    else headerArrived next bs' s
  | some ⟨addr, .descriptors count headerCrc bs crc⟩ =>
    let bs' := bs ++ data
    let crc' := crc16Over crc data
    if bs'.length < count * descriptorBytes then
      readCatalog ⟨addr + data.length, .descriptors count headerCrc bs' crc'⟩ s
    else descriptorsArrived (addr + data.length) count headerCrc bs' crc' s
  | some ⟨_, .applying _ _ _⟩ | none => s

/-- CATALOG_LOAD's own request in the loader fails at a stall (R130 step 5, R136); an application, which has no
request, goes on as if no stall had occurred (R140). -/
def stallCatalog (s : State) : State :=
  match s.startup.catalog with
  | some ⟨_, .header _⟩ | some ⟨_, .descriptors _ _ _ _⟩ => catalogEnd .stalled s
  | some ⟨_, .applying _ _ _⟩ | none => s

/-- CATALOG_LOAD (code 40h) at the loader (R138): refused BUSY, or accepted, holding the executor. -/
def execCatalogLoad (s : State) : Host.Outcome State Fault Refusal :=
  match s.handed 0x40 with
  | some (buf, payload) =>
    match s.fill.engine with
    | .loadingCatalog _ _ _ _ => .next (s.respond buf .busy [])
    | .idle | .awaitHost _ _ | .loadingHost _ _ _ _ _ =>
      .next (beginCatalog (catalogAddress payload)
        { s with mgmt := { s.mgmt with executor := .busy buf .catalogLoad } })
  | none => .next s

/-! ### The boot record (R142, R145 to R147) -/

/-- The state of the boot record's reading. -/
inductive BootProgress where
  | reading (r : BootRead)
  | bad
  | good (r : BootRecord)
  deriving DecidableEq, Repr

/-- The record's contents, from its bytes (10.6). -/
def bootContents (bs : List Byte) : BootRecord :=
  let m := field bs 8 1
  { catalog := if field bs 5 3 = 0xFFFFFF then none else some (field bs 5 3)
    entries := (pieces 12 m (bs.drop 9)).map rawEntry
    preloads := (bs.drop (10 + 12 * m)).take (field bs (9 + 12 * m) 1) }

/-- The offset of the CRC item, once the preload count is there (10.6). -/
def bootCrcAt (bs : List Byte) : Nat := 10 + 12 * field bs 8 1 + field bs (9 + 12 * field bs 8 1) 1

/-- One more byte of the boot record: each check of R142 as soon as the bytes it needs have arrived, and the
CRC-16 over every byte before the CRC item (R146). -/
def bootByte (p : BootProgress) (b : Byte) : BootProgress :=
  match p with
  | .reading r =>
    let i := r.bytes.length
    let bs := r.bytes ++ [b]
    let m := field bs 8 1
    if i = 3 ∧ field bs 0 4 ≠ bootMagic then .bad
    else if i = 4 ∧ b ≠ 1 then .bad
    else if i = 8 ∧ 32 < b.toNat then .bad
    else if 8 < i ∧ i = 9 + 12 * m ∧ 16 < b.toNat then .bad
    else if i ≤ 9 + 12 * m ∨ i ≤ 8 ∨ i < bootCrcAt bs then .reading ⟨bs, crc16Byte r.crc b⟩
    else if i = bootCrcAt bs then .reading ⟨bs, r.crc⟩
    else if field bs (bootCrcAt bs) 2 = r.crc.toNat then .good (bootContents bs)
    else .bad
  | .bad => .bad
  | .good r => .good r

/-- The reading after the bytes of one READ. -/
def bootBytes (r : BootRead) (data : List Byte) : BootProgress := data.foldl bootByte (.reading r)

/-- The length of the boot record whose first bytes these are, once both counts are among them (10.6, R146). -/
def bootEnd (bs : List Byte) : Option Nat :=
  if 8 < bs.length ∧ 9 + 12 * field bs 8 1 < bs.length then some (bootCrcAt bs + 2) else none

/-- The length of the request for the record's next bytes, where `ahead` stands in the serial memory after those
read so far: to the window's end, or to the record's where the counts show that it comes first (R146, log 7). -/
def State.bootLen (s : State) (r : BootRead) (ahead : List Byte) : Nat :=
  let addr := s.bootAddress + r.bytes.length
  windowPart addr (match bootEnd (r.bytes ++ ahead) with
    | some n => s.bootAddress + n
    | none => addr + Config.windowBytes)

/-- The sequencer issues its next boot-record read (R146). -/
def requestBoot (ahead : List Byte) (s : State) : State :=
  match s.startup.bootRead with
  | some r =>
    { s with ctl :=
      (s.ctl.arrive s.memSize .bootRecord (s.bootAddress + r.bytes.length) (s.bootLen r ahead)).2 }
  | none => s

/-- The bytes a READ ends with are ones it can have been issued for: those of a boot-record READ show no other end
of the record than the one it was cut at (R146, log 7). -/
def State.readFits (s : State) (data : List Byte) : Bool :=
  match s.ctl.holder, s.ctl.loader, s.startup.bootRead with
  | .l, q :: _, some r => decide (q.client = .bootRecord → data.length = s.bootLen r data)
  | _, _, _ => true

/-- Stage CATALOG (R147). -/
def stageCatalog (r : BootRecord) (s : State) : State :=
  let s1 := { s with startup := { s.startup with stage := .catalog, record := some r, bootRead := none } }
  match r.catalog with
  | some addr => beginCatalog addr s1
  | none => s1.enterMap

/-- Bytes for the sequencer in stage RECORD (R146). The READ has brought every byte it asked for (R127); those
after a failed check are not looked at. -/
def bootArrived (data ahead : List Byte) (s : State) : State :=
  match s.startup.bootRead with
  | some r =>
    match bootBytes r data with
    | .reading r' => requestBoot ahead { s with startup := { s.startup with bootRead := some r' } }
    | .bad => endStartup (s.setOutcome .noRecord)
    | .good rec => stageCatalog rec s
  | none => s

/-- In stage POLL the sequencer takes the reset poll's result, which the link state shows: stage RECORD and the first
read, or the end of start-up (R145). -/
def pollTaken (ahead : List Byte) (s : State) : State :=
  if s.startup.stage = .poll then
    match s.ctl.link with
    | .ready =>
      requestBoot ahead
        { s with startup := { s.startup with stage := .record, bootRead := some ⟨[], crc16Init⟩ } }
    | .stalled => endStartup (s.setOutcome .linkStalled)
    | .busyWait => s
  else s

/-- The sequencer takes the result of the preload being loaded, in stage PRELOAD, and the next `taken` events follow
at once (R149). -/
def preloadEnded (failed : Bool) (taken : Nat) (s : State) : State :=
  if s.startup.stage = .preload then goOn taken (s.countPreload failed).enterPreload else s

/-- What the sequencer does in the reset event itself (R143, R144). -/
def beginStartup (s : State) : State :=
  let s1 := { s with startup := Startup.reset }
  if s1.pins.bootEn then s1 else endStartup (s1.setOutcome .disabled)

end Sys2Proof.Machine
end

