-- ==== Sys2Proof/Machine/Link.lean ====
section
/-! DEFINITION. The serial memory controller (file 06): arbiter, transactions, busy polling, stall and
LINK_RECOVER. -/

namespace Sys2Proof.Machine

/-! ### The arbiter (R124, R125) -/

/-- The three clients of the link (R122). -/
inductive Client where
  | r | w | l
  deriving DecidableEq, Repr

/-- The client that a choice grants, by the five ordered tests (R124); none where the link is not READY and
idle or no test applies. -/
def arbiterGrant (s : State) : Option Client :=
  if s.ctl.link = .ready ∧ s.ctl.holder = .none then
    if s.offersW ∧ (Config.writePromote ≤ s.write.queue.length ∨ (s.offersR ∧ s.hazardBlocked)) then some .w
    else if s.ctl.offersL ∧ Config.agingLimit ≤ s.ctl.aging then some .l
    else if s.offersR ∧ s.hazardBlocked = false then some .r
    else if s.offersW then some .w
    else if s.ctl.offersL then some .l
    else none
  else none

/-- The aging count after a grant to R or W (R125). -/
def Controller.age (c : Controller) : Controller :=
  { c with aging := if c.offersL then min Config.agingLimit (c.aging + 1) else c.aging }

/-- A grant to R: the head becomes LINK_ACTIVE and its READ begins (R65, R127). -/
def grantRead (s : State) : State :=
  match s.port.readQueue with
  | q :: rest =>
    ({ s with
        ctl := { s.ctl.age with holder := .r }
        port := { s.port with readQueue := { q with active := true } :: rest } }).beginTx
      (.read q.addr q.len)
  | [] => s

/-- A grant to W: the head becomes IN_FLIGHT and WRITE_ENABLE begins (R111, R128). -/
def grantWrite (s : State) : State :=
  match s.write.queue with
  | w :: rest =>
    ({ s with
        ctl := { s.ctl.age with holder := .w }
        write := { s.write with queue := { w with inFlight := true } :: rest } }).beginTx .writeEnable
  | [] => s

/-- A grant to L: the head request is marked granted, the aging count becomes 0 and its READ begins
(R123, R125, R127). -/
def grantLoader (s : State) : State :=
  match s.ctl.loader with
  | q :: rest =>
    ({ s with
        ctl := { s.ctl with holder := .l, aging := 0, loader := { q with granted := true } :: rest } }).beginTx
      (.read q.addr q.len)
  | [] => s

/-- ARBITER_CHOICE (R124): a grant, or nothing where no test applies. -/
def execArbiterChoice (s : State) : Host.Outcome State Fault Refusal :=
  match arbiterGrant s with
  | some .r => .next (grantRead s)
  | some .w => .next (grantWrite s)
  | some .l => .next (grantLoader s)
  | none => .next s

/-! ### READ transactions (R127) -/

/-- The read-queue head is answered DATA(tag) and leaves (R65). -/
def completeRead (data : List Byte) (s : State) : State :=
  match s.port.readQueue with
  | q :: rest =>
    { s.freeLink with
      outputs := s.outputs ++ [.data q.tag data]
      port := { s.port with readQueue := rest, tags := freeTags s.port.tags [q.tag] } }
  | [] => s.freeLink

/-- The bytes of a granted loader request are handed to its requester, or dropped (R123), and the first `taken` events
that they lead to at the catalog loader and the sequencer follow at once (log 20). -/
def deliverLoader (q : LoaderRequest) (data ahead : List Byte) (taken : Nat) (s : State) : State :=
  if q.withdrawn then s
  else
    match q.client with
    | .fill =>
      match chunkArrived data s with
      | (s1, .more) => s1
      | (s1, .done) => preloadEnded false taken s1
      | (s1, .failed) => preloadEnded true taken s1
    | .catalog => goOn taken (catalogArrived data s)
    | .bootRecord => goOn taken (bootArrived data ahead s)

/-- The loader's granted head request leaves and its bytes are delivered (R123). -/
def completeLoader (data ahead : List Byte) (taken : Nat) (s : State) : State :=
  match s.ctl.loader with
  | q :: rest =>
    deliverLoader q data ahead taken { s.freeLink with ctl := { s.freeLink.ctl with loader := rest } }
  | [] => s.freeLink

/-- The end of a READ (R127): it is carried out in full, so it ends with as many bytes as were asked for
(R118). -/
def endRead (data ahead : List Byte) (taken : Nat) (s : State) : State :=
  match s.ctl.tx with
  | some ⟨.read _ len, _⟩ =>
    if data.length = len ∧ s.readFits data = true then
      match s.ctl.holder with
      | .r => completeRead data s
      | .l => completeLoader data ahead taken s
      | .none | .w | .poll => s
    else s
  | some ⟨.writeEnable, _⟩ | some ⟨.write _ _, _⟩ | some ⟨.readStatus, _⟩ | none => s

/-- READ_TRANSACTION_END (R127): the end of a READ, or what it led to going on: the application of a catalog, the
start-up stages (R141, R148 to R151, log 20). -/
def execReadTransactionEnd (data : ReadEnd) (s : State) : Host.Outcome State Fault Refusal :=
  match data with
  | .ends bytes ahead taken => .next (endRead bytes ahead taken s)
  | .goesOn count => .next (goOn count s)

/-! ### Write transactions and polling (R128, R129) -/

/-- WRITE_ENABLE_END: WRITE is issued with the head entry's address and data (R128). -/
def execWriteEnableEnd (s : State) : Host.Outcome State Fault Refusal :=
  match s.ctl.tx, s.write.queue with
  | some ⟨.writeEnable, _⟩, w :: _ => .next (s.beginTx (.write w.addr w.data))
  | _, _ => .next s

/-- WRITE_TRANSACTION_END: BUSY_WAIT, the busy timer starts with BUSY_TIMEOUT, the expired flag is clear
(R128). -/
def execWriteTransactionEnd (s : State) : Host.Outcome State Fault Refusal :=
  match s.ctl.tx with
  | some ⟨.write _ _, _⟩ =>
    .next { s with ctl := { s.ctl with
      tx := none, link := .busyWait, busyTimer := some s.ctl.busyTimeout, expired := false } }
  | some ⟨.writeEnable, _⟩ | some ⟨.read _ _, _⟩ | some ⟨.readStatus, _⟩ | none => .next s

/-- POLL_START: a READ_STATUS begins in BUSY_WAIT between polls (R129). -/
def execPollStart (s : State) : Host.Outcome State Fault Refusal :=
  if s.ctl.link = .busyWait ∧ s.ctl.tx = none ∧ s.pins.inReset = false then .next (s.beginTx .readStatus)
  else .next s

/-- BUSY_TIMER_EXPIRY: the expired flag is set, nothing else happens (R129); a stopped timer does not expire. -/
def execBusyTimerExpiry (s : State) : Host.Outcome State Fault Refusal :=
  match s.ctl.busyTimer with
  | some _ => .next { s with ctl := { s.ctl with expired := true } }
  | none => .next s

/-- A poll answers not busy (R129): the timer stops, the link is READY and idle; with holder W the write-queue
head leaves (R111). -/
def pollComplete (s : State) : State :=
  let s1 := { s with ctl := { s.ctl with link := .ready, holder := .none, busyTimer := none } }
  match s.ctl.holder with
  | .w => { s1 with write := { s1.write with queue := s1.write.queue.tail } }
  | .none | .r | .l | .poll => s1

/-- The link becomes STALLED and idle, its timer stopped and the expired flag clear (R130 step 1, R136). -/
def State.stallLink (s : State) : State :=
  { s with ctl := { s.ctl with link := .stalled, holder := .none, busyTimer := none, expired := false } }

/-- The IN_FLIGHT head leaves as the uncertain write, with its address and length (R112). -/
def removeUncertain (s : State) : State × Option (Nat × Nat) :=
  match s.write.queue with
  | w :: rest =>
    if w.inFlight then
      ({ s with write := { s.write with queue := rest } }, some (w.addr, w.data.length))
    else (s, none)
  | [] => (s, none)

/-- Every read-queue entry is answered ERROR(tag) in queue order and the queue is empty, with their number
(R66). -/
def errorReadQueue (s : State) : State × Nat :=
  ({ s with
      outputs := s.outputs ++ s.port.readQueue.map fun q => .errorTag q.tag
      port := { s.port with
        readQueue := [], tags := freeTags s.port.tags (s.port.readQueue.map (·.tag)) } },
    s.port.readQueue.length)

/-- The loader is empty and the aging count 0; a CATALOG_LOAD read in it has failed (R130 step 5). -/
def flushLoader (s : State) : State :=
  stallCatalog { s with ctl := { s.ctl with loader := [], aging := 0 } }

/-- What both stalls do after the link state: the read queue, the fill engine, the loader, DN_STALLED
(R130 steps 3 to 6, R136). -/
def stallClients (uncertain : Option (Nat × Nat)) (s : State) : State :=
  match errorReadQueue s with
  | (s1, errored) =>
    match stallFill s1 with
    | (s2, failed) => (flushLoader s2).post (.dnStalled uncertain errored failed)

/-- A busy timeout (R130). -/
def busyTimeout (s : State) : State :=
  match removeUncertain s.stallLink with
  | (s1, uncertain) => stallClients uncertain s1

/-- A reset-poll timeout (R136). -/
def resetPollTimeout (s : State) : State := stallClients none s.stallLink

/-- A poll answers busy with the expired flag set (R129). -/
def pollTimeout (s : State) : State :=
  match s.ctl.holder with
  | .w => busyTimeout s
  | .poll => resetPollTimeout s
  | .none | .r | .l => s

/-- The end of a poll (R129). -/
def endPoll (status : Byte) (s : State) : State :=
  if s.ctl.link = .busyWait ∧ (s.ctl.tx.map (·.op)) = some .readStatus then
    let s1 := { s with ctl := { s.ctl with tx := none } }
    if busyFlag status = false then pollComplete s1
    else if s.ctl.expired then pollTimeout s1
    else s1
  else s

/-- POLL_END (R129): the end of a poll, and its result taken by the sequencer in the same event or in a later one
(R145, log 20). -/
def execPollEnd (status : PollAnswer) (s : State) : Host.Outcome State Fault Refusal :=
  match status with
  | .ends status ahead taken =>
    .next (if taken then pollTaken ahead (endPoll status s) else endPoll status s)
  | .taken ahead => .next (pollTaken ahead s)

/-! ### LINK_RECOVER (R133) -/

/-- LINK_RECOVER (code 41h): refused unless STALLED; otherwise one READ_STATUS with holder POLL, holding the
executor. -/
def execLinkRecover (s : State) : Host.Outcome State Fault Refusal :=
  match s.handed 0x41 with
  | some (buf, _) =>
    if s.ctl.link = .stalled then
      .next (({ s with
        ctl := { s.ctl with holder := .poll }
        mgmt := { s.mgmt with executor := .busy buf .linkRecover } }).beginTx .readStatus)
    else .next (s.respond buf .wrongState [])
  | none => .next s

/-- LINK_RECOVER_POLL_END (R133). -/
def execLinkRecoverPollEnd (status : Byte) (s : State) : Host.Outcome State Fault Refusal :=
  if s.ctl.link = .stalled ∧ s.ctl.holder = .poll ∧ (s.ctl.tx.map (·.op)) = some .readStatus then
    if busyFlag status then .next (s.freeLink.respondLong .linkRecover .stillBusy [])
    else
      .next (({ s.freeLink with ctl := { s.freeLink.ctl with link := .ready } }).respondLong
        .linkRecover .ok [])
  else .next s

end Sys2Proof.Machine
end

