-- ==== Sys2Proof/Machine/Management.lean ====
section
/-! DEFINITION. The management link (file 08): transfers, frames, the executor, IDENTIFY, STATUS, SET_PARAM. -/

namespace Sys2Proof.Machine

/-! ### Transfers -/

/-- A RECEIVING buffer is emptied: its frame's transfer has ended before the check byte (R156). -/
def CmdBuffer.discard : CmdBuffer → CmdBuffer
  | .receiving _ => .empty
  | .empty => .empty
  | .pending f seq ok => .pending f seq ok
  | .executing f seq => .executing f seq
  | .answered r => .answered r

/-- The transfer on the bus ends (R154): an unfinished frame is discarded (R156), a read transfer is over. -/
def Mgmt.endTransfer (m : Mgmt) : Mgmt :=
  { m with bufA := m.bufA.discard, bufB := m.bufB.discard, reading := none, refusing := false }

/-- The buffer chosen for a write transfer (R159); none is overrun. -/
def Mgmt.choose (m : Mgmt) : Option BufId :=
  match m.bufA, m.bufB with
  | .empty, .empty => some m.mark
  | .empty, _ => some .A
  | _, .empty => some .B
  | _, _ => none

/-- The target acknowledges the address byte (R154): its own address, RESET_N not asserted. -/
def State.acknowledges (s : State) (addr : BitVec 7) : Bool :=
  !s.pins.inReset && addr == s.targetAddress

/-- The buffer that is RECEIVING, and the bytes received so far. -/
def Mgmt.receivingBuf (m : Mgmt) : Option (BufId × List Byte) :=
  match m.bufA, m.bufB with
  | .receiving bytes, _ => some (.A, bytes)
  | _, .receiving bytes => some (.B, bytes)
  | _, _ => none

/-- The address of a write transfer (R154, R159): the part's own takes a buffer or is an overrun, any other is
not acknowledged. -/
def startWrite (addr : BitVec 7) (s : State) : State :=
  let m := s.mgmt.endTransfer
  if s.acknowledges addr then
    match m.choose with
    | some b =>
      { s.emit (.addressAck true) with mgmt := { m.setBuf b (.receiving []) with mark := b.other } }
    | none => { s.emit (.addressAck true) with mgmt := { m with refusing := true } }
  else { s.emit (.addressAck false) with mgmt := m }

/-- A data byte of the write transfer on the bus (R155, R159): received into the buffer and acknowledged, not
acknowledged where the target takes none, or of a transfer that is not the part's. The check byte and a length
byte above 72 are events of their own rows (log 11). -/
def receiveByte (s : State) (b : Byte) : State :=
  match s.mgmt.receivingBuf with
  | some (buf, bytes) =>
    if frameTakes bytes b then
      { s.emit (.dataAck true) with mgmt := s.mgmt.setBuf buf (.receiving (bytes ++ [b])) }
    else s
  | none => if s.mgmt.refusing then s.emit (.dataAck false) else s

/-- WRITE_TRANSFER_START (R154, R155, R159): a new transfer to the address, or the one on the bus going on,
with data bytes. -/
def execWriteTransferStart (addr : WritePart) (s : State) : Host.Outcome State Fault Refusal :=
  match addr.addr with
  | some a => .next (addr.data.foldl receiveByte (startWrite a s))
  | none => .next (addr.data.foldl receiveByte s)

/-- FRAME_COMPLETE (R155, R157), once the code, the length and the payload are received: the check byte is
acknowledged, the frame takes a sequence number and its buffer becomes PENDING with the result of its check;
later bytes of the transfer are not acknowledged. -/
def execFrameComplete (code : Byte) (payload : List Byte) (check : Byte) (s : State) :
    Host.Outcome State Fault Refusal :=
  match s.mgmt.receivingBuf with
  | some (buf, bytes) =>
    if frameOf bytes = some ⟨code, payload⟩ then
      .next { s.emit (.dataAck true) with mgmt :=
        { s.mgmt.setBuf buf (.pending ⟨code, payload⟩ s.mgmt.seq (crc8 bytes == check)) with
          seq := s.mgmt.seq + 1, refusing := true } }
    else .next s
  | none => .next s

/-- FRAME_DISCARD (R156): the length byte is above 72 and neither it nor a later byte of the transfer is
acknowledged, or the transfer ends before the check byte. -/
def execFrameDiscard (cause : DiscardCause) (s : State) : Host.Outcome State Fault Refusal :=
  match s.mgmt.receivingBuf with
  | some (buf, bytes) =>
    match cause with
    | .badLength len =>
      if bytes.length = 1 ∧ Config.payloadMax < len.toNat then
        .next { s.emit (.dataAck false) with mgmt := { s.mgmt.setBuf buf .empty with refusing := true } }
      else .next s
    | .earlyEnd => .next { s with mgmt := s.mgmt.setBuf buf .empty }
  | none => .next s

/-- Of two sequence numbers, the first was given first: frames complete in order and only two are held, so
the later number is the next one, modulo 256 (log 17). -/
def seqBefore (x y : BitVec 8) : Bool := (y - x).toNat < 128

/-- The buffer whose frame arrived first among those in a state that carries a sequence number. -/
def Mgmt.oldest (m : Mgmt) (seqOf : CmdBuffer → Option (BitVec 8)) : Option BufId :=
  match seqOf m.bufA, seqOf m.bufB with
  | none, none => none
  | some _, none => some .A
  | none, some _ => some .B
  | some x, some y => if seqBefore x y then some .A else some .B

/-- The sequence number of an ANSWERED buffer. -/
def CmdBuffer.answeredSeq : CmdBuffer → Option (BitVec 8)
  | .answered r => some r.seq
  | .empty | .receiving _ | .pending _ _ _ | .executing _ _ => none

/-- The sequence number of a PENDING buffer. -/
def CmdBuffer.pendingSeq : CmdBuffer → Option (BitVec 8)
  | .pending _ seq _ => some seq
  | .empty | .receiving _ | .answered _ | .executing _ _ => none

/-- The frame chosen for a read transfer as the address is acknowledged (R163). -/
def Mgmt.chooseFrame (m : Mgmt) : ReadTransfer :=
  match m.oldest CmdBuffer.answeredSeq with
  | some b =>
    match m.buf b with
    | .answered r => ⟨some b, r.bytes⟩
    | _ => ⟨none, notReadyFrame⟩
  | none => ⟨none, notReadyFrame⟩

/-- `count` bytes of the transfer on the bus: the chosen frame's, then FFh; when a response's check byte has
been sent its buffer becomes EMPTY (R163). -/
def Mgmt.send (m : Mgmt) (t : ReadTransfer) (count : Nat) : Mgmt × List Byte :=
  let left := t.left.drop count
  let bytes := t.left.take count ++ List.replicate (count - t.left.length) 0xFF
  match t.source with
  | some b =>
    if left = [] then ({ m.setBuf b .empty with reading := some ⟨none, []⟩ }, bytes)
    else ({ m with reading := some ⟨some b, left⟩ }, bytes)
  | none => ({ m with reading := some ⟨none, left⟩ }, bytes)

/-- READ_TRANSFER (R163): a new transfer to the address, or the one on the bus going on. -/
def execReadTransfer (addr : Option (BitVec 7)) (count : Nat) (s : State) :
    Host.Outcome State Fault Refusal :=
  match addr with
  | some a =>
    let m := s.mgmt.endTransfer
    if s.acknowledges a then
      let r := m.send m.chooseFrame count
      .next { s.emitAll [.addressAck true, .sent r.2] with mgmt := r.1 }
    else .next { s.emit (.addressAck false) with mgmt := m }
  | none =>
    match s.mgmt.reading with
    | some t =>
      let r := s.mgmt.send t count
      .next { s.emit (.sent r.2) with mgmt := r.1 }
    | none => .next s

/-! ### The executor (R160, R161) -/

/-- The first of the executor's four checks that applies to a frame (R161, R182). -/
def frameRefusal (starting : Bool) (f : Frame) (checkOk : Bool) : Option Status :=
  if checkOk = false then some .badCheck
  else
    match acceptedLengths f.code with
    | none => some .unknownCommand
    | some (lo, hi) =>
      if f.payload.length < lo ∨ hi < f.payload.length then some .badLength
      else if starting ∧ f.code ≠ 0x01 ∧ f.code ≠ 0x02 ∧ f.code ≠ 0x05 then some .starting
      else none

/-- The executor takes a PENDING buffer: EXECUTING and BUSY, then refused with payload length 0 or handed to
its owner (R160, R161). -/
def takeBuffer (b : BufId) (f : Frame) (seq : BitVec 8) (checkOk : Bool) (s : State) : State :=
  let s1 := { s with mgmt :=
    { s.mgmt.setBuf b (.executing f seq) with executor := .busy b .handed, scan := [] } }
  match frameRefusal s.starting f checkOk with
  | some st => s1.respond b st []
  | none => s1

/-- EXECUTOR_TAKE (R160): the idle executor takes the buffer whose frame completed first. -/
def execExecutorTake (s : State) : Host.Outcome State Fault Refusal :=
  match s.mgmt.executor with
  | .idle =>
    match s.mgmt.oldest CmdBuffer.pendingSeq with
    | some buf =>
      match s.mgmt.buf buf with
      | .pending f seq ok => .next (takeBuffer buf f seq ok s)
      | .empty | .receiving _ | .executing _ _ | .answered _ => .next s
    | none => .next s
  | .busy _ _ => .next s

/-! ### IDENTIFY (R166) -/

/-- The IDENTIFY payload (R166, 10.2). -/
def identifyPayload : List Byte :=
  leBytes 2 0x3A51 ++ leBytes 2 0x0512 ++ [0x01, byte 32, byte 62] ++ leBytes 2 512 ++ leBytes 2 256 ++
    [byte 16, byte 8, byte 8, byte 8, byte 15, byte 72]

/-- IDENTIFY at the link. -/
def ownIdentify (_p : List Byte) (s : State) : Reply := .unchanged s .ok identifyPayload

/-- IDENTIFY (code 01h). -/
def execIdentify (s : State) : Host.Outcome State Fault Refusal := runCommand 0x01 ownIdentify s

/-! ### STATUS (R167, 10.4) -/

/-- The items of each owner, in the order of R167, which is the order of the payload (10.4). DESIGN CHOICE
(log 13): the items of one owner are read together, as R167 says, although its last example counts a segment
in the fill-queue occupancy that the engine, read a moment later, shows as current, and both items are the
fill engine's. -/
def statusParts (s : State) : List (List Byte) :=
  [ -- management link
    [byte (s.pins.sz.toNat + (if s.pins.bootEn then 8 else 0) + 16 * s.pins.ma.toNat),
      byte (memoryMiB s.pins.sz), byte (s.mgmt.bufA.code + 16 * s.mgmt.bufB.code), s.mgmt.seq],
    -- start-up sequencer
    [s.startup.stage.code, s.startup.outcome.code],
    -- map unit
    leBytes 2 s.map.generation.toNat,
    -- segment store
    leBytes 2 s.store.free.length ++ [byte s.store.residence.length],
    -- read path
    [byte s.port.tags.length, byte s.port.readQueue.length, byte s.port.held.length],
    -- fill engine
    [s.fill.engine.code, segByte s.fill.engine.current, byte s.fill.queue.length] ++
      leBytes 3 s.fill.engine.received ++
      (match s.fill.lastEnd with
       | some (i, o) => [byte (segNum i), o.code]
       | none => [0x00, 0x00]) ++
      leBytes 2 s.fill.startTimeout ++ leBytes 2 s.fill.gapTimeout,
    -- write path
    [byte s.write.queue.length, byte s.write.highWater],
    -- serial memory controller
    [s.ctl.link.code, s.ctl.holder.code, byte s.ctl.busyTimeout, byte s.ctl.divider],
    -- event queue
    [byte s.events.records.length, byte s.events.lost] ]

/-- STATUS (code 02h): `owners` further owners are read in this event; the response is placed in the event
that reads the last (R167, log 13). -/
def execStatus (owners : Nat) (s : State) : Host.Outcome State Fault Refusal :=
  match s.handed 0x02 with
  | some (buf, _) =>
    let parts := s.mgmt.scan ++ ((statusParts s).drop s.mgmt.scan.length).take owners
    if (statusParts s).length ≤ parts.length then .next (s.respond buf .ok parts.flatten)
    else .next { s with mgmt := { s.mgmt with scan := parts } }
  | none => .next s

/-! ### SET_PARAM (R168, R93, R110, R134) -/

/-- The parameter with a legal value replaced by its owner; none is a refusal BAD_ARGUMENT. -/
def setParam (ident value : Nat) (s : State) : Option State :=
  match ident with
  | 1 => if 1 ≤ value then some { s with fill := { s.fill with startTimeout := value } } else none
  | 2 => if 1 ≤ value then some { s with fill := { s.fill with gapTimeout := value } } else none
  | 3 =>
    if 1 ≤ value ∧ value ≤ 8 then some { s with write := { s.write with highWater := value } } else none
  | 4 =>
    if 1 ≤ value ∧ value ≤ 255 then some { s with ctl := { s.ctl with busyTimeout := value } } else none
  | 5 =>
    if value = 2 ∨ value = 4 ∨ value = 8 ∨ value = 16 then
      some { s with ctl := { s.ctl with divider := value } }
    else none
  | _ => none

/-- SET_PARAM at the link and the parameter's owner (R168). -/
def ownSetParam (p : List Byte) (s : State) : Reply :=
  match setParam (setParamArgs p).1 (setParamArgs p).2 s with
  | some s1 =>
    { state := s1, status := .ok, payload := byte (setParamArgs p).1 :: leBytes 2 (setParamArgs p).2 }
  | none => .unchanged s .badArgument

/-- SET_PARAM (code 03h). -/
def execSetParam (s : State) : Host.Outcome State Fault Refusal := runCommand 0x03 ownSetParam s

end Sys2Proof.Machine
end

