-- ==== Sys2Proof/Machine/Resets.lean ====
section
/-! DEFINITION. Pin reset, its release, and soft reset (R22, R50, R73, R74, R101, R117, R135, R136, R143,
R169 to R171, R181). -/

namespace Sys2Proof.Machine

/-- Last end after a reset: the current segment with outcome RESET, or none (R101). -/
def FillUnit.endAtReset (f : FillUnit) : Option (SegId × FillOutcome) :=
  f.engine.current.map fun i => (i, .reset)

/-- Every block but the management link and the pins at its reset value, the controller before its reset
poll has begun; last end and the reset-discard count as given. -/
def State.resetBlocks (s : State) (lastEnd : Option (SegId × FillOutcome)) (discarded : Nat) : State :=
  { s with
    map := MapUnit.reset, store := Store.reset s.store.sram, port := Port.reset
    fill := FillUnit.reset lastEnd, write := WritePath.reset discarded, ctl := Controller.held
    startup := Startup.reset, events := EventQueue.reset }

/-- CS_N is driven high at once if a transaction is in flight (R135). -/
def State.cutOff (s : State) : State := if s.ctl.tx.isSome then s.emit .deselect else s

/-- The reset poll begins: the busy timer runs with the reset limit and the first READ_STATUS is issued
(R136). -/
def State.beginResetPoll (s : State) : State :=
  ({ s with ctl := { s.ctl with busyTimer := some Config.busyTimeoutReset } }).beginTx .readStatus

/-- PIN_RESET. At power-on no queue entry is counted and there is no last end (R101, R117). An assertion
of a RESET_N that is asserted already is no event (log 2, log 22). -/
def execPinReset (powerOn : Bool) (s : State) : Host.Outcome State Fault Refusal :=
  if powerOn = false ∧ s.pins.inReset = true then .next s
  else
    let s1 := s.cutOff.resetBlocks (if powerOn then none else s.fill.endAtReset)
      (if powerOn then 0 else s.write.queue.length)
    .next { s1 with mgmt := Mgmt.reset, pins := { s1.pins with inReset := true } }

/-- PIN_RESET_RELEASE: the straps are sampled, every block takes its reset value, the reset poll and start-up
begin (R136, R143, R144, R154, R171). -/
def execPinResetRelease (sz : BitVec 3) (ma : BitVec 2) (bootEn : Bool) (s : State) :
    Host.Outcome State Fault Refusal :=
  if s.pins.inReset then
    let s1 := s.resetBlocks s.fill.lastEnd s.write.resetDiscard
    .next (beginStartup (({ s1 with
      mgmt := Mgmt.reset
      pins := { inReset := false, sz := sz, ma := ma, bootEn := bootEn } }).beginResetPoll))
  else .next s

/-- The answers of a soft reset: ERROR(tag) to the held reads in arrival order, then to the read queue (R73), and
RETRY to a presentation whose lookup result is discarded (R22, R52, R54, log 25). -/
def softResetAnswers (p : Port) : List Output :=
  (p.held.map fun h => .errorTag h.tag) ++ (p.readQueue.map fun q => .errorTag q.tag) ++
    (p.looked.map fun _ => Output.answer .retry).toList

/-- The management link after a soft reset taken from buffer `b`: its response placed, the other buffer
EMPTY, a read transfer of the other buffer's response left with nothing to send, a write transfer into it
acknowledged no further (R169, R170). -/
def Mgmt.softReset (m : Mgmt) (b : BufId) : Mgmt :=
  let m1 := (m.respond b .ok []).setBuf b.other .empty
  { m1 with
    reading := m1.reading.map fun t => if t.source = some b.other then ⟨none, []⟩ else t
    refusing := m.refusing || (m.buf b.other).isReceiving }

/-- The soft reset, as one event (R169). -/
def softReset (b : BufId) (s : State) : State :=
  let s1 := ({ s with mgmt := s.mgmt.softReset b }).emitAll (softResetAnswers s.port)
  beginStartup
    (s1.cutOff.resetBlocks s.fill.endAtReset s.write.queue.length).beginResetPoll

/-- RESET (code 04h). -/
def execReset (s : State) : Host.Outcome State Fault Refusal :=
  match s.handed 0x04 with
  | some (buf, _) => .next (softReset buf s)
  | none => .next s

end Sys2Proof.Machine
end

