-- ==== Sys2Proof/Machine/Dispatch.lean ====
section
/-! DEFINITION. One arm for each command: a direct call of its meaning. -/

namespace Sys2Proof.Machine

def exec (i : Instr) (s : State) : Host.Outcome State Fault Refusal :=
  match i with
  | .pinReset powerOn => Sys2Proof.Machine.execPinReset powerOn s
  | .pinResetRelease sz ma bootEn => Sys2Proof.Machine.execPinResetRelease sz ma bootEn s
  | .read tag addr len => Sys2Proof.Machine.execRead tag addr len s
  | .write addr data => Sys2Proof.Machine.execWrite addr data s
  | .arbiterChoice => Sys2Proof.Machine.execArbiterChoice s
  | .readTransactionEnd data => Sys2Proof.Machine.execReadTransactionEnd data s
  | .writeEnableEnd => Sys2Proof.Machine.execWriteEnableEnd s
  | .writeTransactionEnd => Sys2Proof.Machine.execWriteTransactionEnd s
  | .pollStart => Sys2Proof.Machine.execPollStart s
  | .busyTimerExpiry => Sys2Proof.Machine.execBusyTimerExpiry s
  | .pollEnd status => Sys2Proof.Machine.execPollEnd status s
  | .writeTransferStart addr => Sys2Proof.Machine.execWriteTransferStart addr s
  | .frameComplete code payload check => Sys2Proof.Machine.execFrameComplete code payload check s
  | .frameDiscard cause => Sys2Proof.Machine.execFrameDiscard cause s
  | .readTransfer addr count => Sys2Proof.Machine.execReadTransfer addr count s
  | .executorTake => Sys2Proof.Machine.execExecutorTake s
  | .identify => Sys2Proof.Machine.execIdentify s
  | .status owners => Sys2Proof.Machine.execStatus owners s
  | .setParam => Sys2Proof.Machine.execSetParam s
  | .reset => Sys2Proof.Machine.execReset s
  | .eventRead => Sys2Proof.Machine.execEventRead s
  | .mapWrite => Sys2Proof.Machine.execMapWrite s
  | .mapClear => Sys2Proof.Machine.execMapClear s
  | .mapCopy => Sys2Proof.Machine.execMapCopy s
  | .mapRead => Sys2Proof.Machine.execMapRead s
  | .mapCommit => Sys2Proof.Machine.execMapCommit s
  | .segDeclare => Sys2Proof.Machine.execSegDeclare s
  | .segRelease => Sys2Proof.Machine.execSegRelease s
  | .segDrop => Sys2Proof.Machine.execSegDrop s
  | .segPin => Sys2Proof.Machine.execSegPin s
  | .segQuery => Sys2Proof.Machine.execSegQuery s
  | .segRead => Sys2Proof.Machine.execSegRead s
  | .preload => Sys2Proof.Machine.execPreload s
  | .fillBegin => Sys2Proof.Machine.execFillBegin s
  | .fillData => Sys2Proof.Machine.execFillData s
  | .fillEnd => Sys2Proof.Machine.execFillEnd s
  | .fillAbort => Sys2Proof.Machine.execFillAbort s
  | .catalogLoad => Sys2Proof.Machine.execCatalogLoad s
  | .linkRecover => Sys2Proof.Machine.execLinkRecover s
  | .linkRecoverPollEnd status => Sys2Proof.Machine.execLinkRecoverPollEnd status s
  | .takeHead => Sys2Proof.Machine.execTakeHead s
  | .startTimerExpiry => Sys2Proof.Machine.execStartTimerExpiry s
  | .gapTimerExpiry => Sys2Proof.Machine.execGapTimerExpiry s

end Sys2Proof.Machine
end

