-- ==== Sys2Proof/Safety.lean ====
section
/-! DEFINITION. The terms in which claims are made: which parts of the state an event leaves unchanged, what
a placed response looks like, and the laws the spec says hold of the part at all times. -/

namespace Sys2Proof.Machine

/-! ### Frames -/

/-- The twelve parts of the state. -/
inductive Part where
  | pending | outputs | pins | map | store | port | fill | write | ctl | startup | mgmt | events
  deriving DecidableEq, Repr

/-- A part is the same in two states. -/
def Part.same : Part → State → State → Prop
  | .pending, s, t => t.pending = s.pending
  | .outputs, s, t => t.outputs = s.outputs
  | .pins, s, t => t.pins = s.pins
  | .map, s, t => t.map = s.map
  | .store, s, t => t.store = s.store
  | .port, s, t => t.port = s.port
  | .fill, s, t => t.fill = s.fill
  | .write, s, t => t.write = s.write
  | .ctl, s, t => t.ctl = s.ctl
  | .startup, s, t => t.startup = s.startup
  | .mgmt, s, t => t.mgmt = s.mgmt
  | .events, s, t => t.events = s.events

/-- Every part but those listed is unchanged. -/
def SameBut (ps : List Part) (s t : State) : Prop := ∀ p, p ∉ ps → p.same s t

/-- The response to the command in buffer `b` has been placed and nothing else of the management link has
changed (R160, R164): the buffer ANSWERED with the frame's code and sequence number, the executor IDLE. -/
def Answered (b : BufId) (status : Status) (payload : List Byte) (s t : State) : Prop :=
  ∃ f q, s.mgmt.buf b = .executing f q ∧
    t.mgmt = { s.mgmt.setBuf b (.answered ⟨status, f.code, q, payload⟩) with executor := .idle, scan := [] }

/-- Every byte of overlay memory outside a set of keys reads as before. -/
def MemorySameOutside (keys : Nat → Prop) (s t : State) : Prop :=
  ∀ k, ¬ keys k → Memory.read t.store.sram k = Memory.read s.store.sram k

/-- The overlay keys of `len` bytes of a block list from segment byte offset `o` upward (R23). -/
def KeysOf (blocks : List Block) (o len : Nat) (k : Nat) : Prop :=
  ∃ j, j < len ∧ blockKey blocks (o + j) = some k

/-- Every segment record but one is unchanged. -/
def OtherSegsSame (i : SegId) (s t : State) : Prop := ∀ j, j ≠ i → t.store.seg j = s.store.seg j

/-! ### Laws that hold at all times -/

/-- R172: at most 15 records, at most one EVENTS_LOST among them, a lost count of at most 255, and none
pending in an empty queue (R177). -/
def EventsLaw (s : State) : Prop :=
  s.events.records.length ≤ 15 ∧ (s.events.records.filter EventRec.isLost).length ≤ 1 ∧
    s.events.lost ≤ 255 ∧ (0 < s.events.lost → s.events.records ≠ [])

/-- Overlay memory is in canonical form. -/
def MemoryLaw (s : State) : Prop := Memory.wf s.store.sram

/-- A map entry's fields have their legal values (R2). -/
def MapEntry.Legal (e : MapEntry) : Prop :=
  e.base % 256 = 0 ∧ e.size % 256 = 0 ∧ 256 ≤ e.size ∧ e.size ≤ 65536 ∧ e.base + e.size ≤ 16777216 ∧
    e.offset % 256 = 0 ∧ e.offset + e.size ≤ 65536

/-- Every valid entry of a bank is legal. -/
def Bank.Legal (bank : Bank) : Prop := ∀ (i : MapIndex) (e : MapEntry), bank[i] = some e → e.Legal

/-- R2 note 1: every valid entry of either bank satisfies the table of R2. -/
def EntriesLaw (s : State) : Prop := Bank.Legal s.map.active ∧ Bank.Legal s.map.shadow

/-- A bank is consistent with the segment table: what a commit validates (R15, R17). -/
def Bank.Consistent (bank : Bank) (st : Store) : Prop :=
  (∀ (i j : MapIndex) (e f : MapEntry), bank[i] = some e → bank[j] = some f → i ≠ j → e.overlaps f = false) ∧
  (∀ (i : MapIndex) (e : MapEntry), bank[i] = some e →
    ∃ r, st.seg e.seg = some r ∧ e.offset + e.size ≤ blocksFor r.length * 256)

/-- R17: the law of the ACTIVE bank. -/
def ActiveLaw (s : State) : Prop := Bank.Consistent s.map.active s.store

/-- The block lists of all declared segments, one after another. -/
def Store.allBlocks (st : Store) : List Block := (List.finRange 62).flatMap st.blocksOf

/-- A declared segment's block list fits its state (R25): as many blocks as its length needs when FILLING or
RESIDENT, none in every other state. -/
def SegRecord.BlocksFit (r : SegRecord) : Prop :=
  if r.state = .filling ∨ r.state = .resident then r.blocks.length = blocksFor r.length else r.blocks = []

/-- The state a segment has while it is the engine's current segment (R78). -/
def Engine.Fits (e : Engine) (st : Store) : Prop :=
  match e with
  | .idle => True
  | .awaitHost i _ => ∃ r, st.seg i = some r ∧ r.state = .requested
  | .loadingHost i _ _ _ _ => ∃ r, st.seg i = some r ∧ r.state = .filling
  | .loadingCatalog i _ _ _ => ∃ r, st.seg i = some r ∧ r.state = .filling

/-- The law of the segment store and the fill engine: blocks are conserved and fit the states (R25), the
residence list holds exactly the RESIDENT segments, each once (R36), the fill queue holds QUEUED segments,
each once (R75), the current segment has the state of R78. -/
structure StoreLaw (s : State) : Prop where
  blocks : (s.store.free ++ s.store.allBlocks).Perm (List.finRange 512)
  fit : ∀ i r, s.store.seg i = some r → r.BlocksFit
  resident : s.store.residence.Nodup ∧
    ∀ i, i ∈ s.store.residence ↔ ∃ r, s.store.seg i = some r ∧ r.state = .resident
  queued : s.fill.queue.Nodup ∧ ∀ i ∈ s.fill.queue, ∃ r, s.store.seg i = some r ∧ r.state = .queued
  current : s.fill.engine.Fits s.store

/-- A state in which a segment may have held reads (R68). -/
def SegState.holds (g : SegState) : Prop := g = .queued ∨ g = .requested ∨ g = .filling

/-- The law of the host bus port: the outstanding tags are distinct and are those of the held reads and the
read queue (R52, R72), at most eight reads are held, each on a segment QUEUED, REQUESTED or FILLING, and each
segment's held count is their number (R68); the tag of a read that waits for its enquiry is not outstanding (R54). -/
structure PortLaw (s : State) : Prop where
  distinct : s.port.tags.Nodup
  outstanding : s.port.tags.Perm (s.port.held.map (·.tag) ++ s.port.readQueue.map (·.tag))
  held : s.port.held.length ≤ 8
  names : ∀ h ∈ s.port.held, ∃ r, s.store.seg h.seg = some r ∧ r.state.holds
  counts : ∀ i, s.store.heldOf i = (s.port.heldFor i).length
  waits : ∀ q h, s.port.looked = some (.read q h) → q.tag ∉ s.port.tags

/-- R121: while the link is STALLED, no transaction but a status poll is on it. -/
def StalledLaw (s : State) : Prop :=
  s.ctl.link = .stalled → s.ctl.tx = none ∨ ∃ d, s.ctl.tx = some ⟨.readStatus, d⟩

/-- R75, R108: at most eight ids in the fill queue, at most eight entries in the write queue. -/
def QueueLaw (s : State) : Prop := s.fill.queue.length ≤ 8 ∧ s.write.queue.length ≤ 8

end Sys2Proof.Machine
end

