-- ==== Sys2Proof/Certificates/Slice0/Obligations.lean ====
section
/-! DEFINITION. The statements for the provers. A management command's statement takes the command as the
executor has handed it to its owner: `s.handed code = some (b, p)` says that the executor is BUSY with buffer
`b`, which is EXECUTING a frame of that code with payload `p` (R160). -/

open Sys2Proof Sys2Proof.Machine

/-! ### The step -/

/-- A step runs the command at the front of the queue on the state with the queue's rest; on an empty queue
the block idles, which is the model's choice (log 1). -/
def Obligations.StepRunsFront : Prop :=
  (∀ (c : Instr) (rest : List Instr) (s : State),
    step { s with pending := c :: rest } = exec c { s with pending := rest }) ∧
  ∀ s : State, s.pending = [] → step s = .next s

/-- The sampled straps change only at a release of RESET_N (R144, R154). That no command touches the queue of
waiting commands is the model's choice (log 1), and so is that every command answers a next state, one that
cannot happen in the present state (log 2) or lies outside its operand ranges (log 24) among them. -/
def Obligations.EveryCommandAnswers : Prop :=
  ∀ (c : Instr) (s : State), ∃ t, exec c s = .next t ∧ t.pending = s.pending ∧
    ((∀ sz ma be, c ≠ .pinResetRelease sz ma be) →
      t.pins.sz = s.pins.sz ∧ t.pins.ma = s.pins.ma ∧ t.pins.bootEn = s.pins.bootEn)

/-! ### Resets -/

/-- PIN_RESET: power-on, or an assertion of RESET_N that was not asserted, leaves every block at its reset
value, the link held, no transaction and the I2C buffers EMPTY, and answers no read and no presentation. That
the overlay SRAM keeps its bytes, unreachable as R50 says, is the model's choice (log 8). An assertion while
RESET_N is asserted already is no event: the model's choice (log 22).
PIN_RESET_RELEASE: the straps are sampled, the reset poll begins with the 20 ms timer, and start-up is
at stage POLL, or has ended DISABLED where BOOT_EN is 0. A release of a RESET_N that is not asserted is no
event: the model's choice (log 2). -/
def Obligations.PinResets : Prop :=
  ((∀ s : State, s.pins.inReset = true → exec (.pinReset false) s = .next s) ∧
   ∀ (powerOn : Bool) (s : State), (powerOn = true ∨ s.pins.inReset = false) →
     ∃ t, exec (.pinReset powerOn) s = .next t ∧
       t.outputs = s.outputs ++ (if s.ctl.tx = none then [] else [.deselect]) ∧
       t.pins = { s.pins with inReset := true } ∧
       t.map = { active := Vector.replicate 32 none, shadow := Vector.replicate 32 none, generation := 0 } ∧
       t.store.free = List.finRange 512 ∧ (∀ i, t.store.seg i = none) ∧ t.store.residence = [] ∧
       t.store.sram = s.store.sram ∧
       t.port = { tags := [], readQueue := [], held := [], arrival := 0, looked := none } ∧
       t.fill = { queue := [], engine := .idle, startTimeout := 2000, gapTimeout := 500,
                  lastEnd := if powerOn then none else s.fill.engine.current.map fun i => (i, .reset) } ∧
       t.write = { queue := [], highWater := 8,
                   resetDiscard := if powerOn then 0 else s.write.queue.length } ∧
       t.ctl.tx = none ∧ t.ctl.link = .busyWait ∧ t.ctl.holder = .poll ∧ t.ctl.loader = [] ∧
       t.ctl.busyTimeout = 20 ∧ t.ctl.divider = 8 ∧ t.ctl.aging = 0 ∧ t.ctl.expired = false ∧
       t.startup.stage = .poll ∧
       t.mgmt = { bufA := .empty, bufB := .empty, mark := .A, seq := 0, executor := .idle, scan := [],
                  reading := none, refusing := false } ∧
       t.events = { records := [], lost := 0, seq := 0 } ∧ t.pending = s.pending) ∧
  (∀ (sz : BitVec 3) (ma : BitVec 2) (be : Bool) (s : State),
     (s.pins.inReset = false → exec (.pinResetRelease sz ma be) s = .next s) ∧
     (s.pins.inReset = true → ∃ t, exec (.pinResetRelease sz ma be) s = .next t ∧
       t.pins = { inReset := false, sz := sz, ma := ma, bootEn := be } ∧
       t.ctl = { link := .busyWait, holder := .poll, tx := some ⟨.readStatus, 8⟩, busyTimer := some 20,
                 expired := false, aging := 0, busyTimeout := 20, divider := 8, loader := [] } ∧
       t.outputs = s.outputs ++ [.begins ⟨.readStatus, 8⟩] ∧
       t.map.generation = 0 ∧ (∀ i : MapIndex, t.map.active[i] = none ∧ t.map.shadow[i] = none) ∧
       t.store.free = List.finRange 512 ∧ (∀ i, t.store.seg i = none) ∧ t.store.residence = [] ∧
       t.port = { tags := [], readQueue := [], held := [], arrival := 0, looked := none } ∧
       t.write = { queue := [], highWater := 8, resetDiscard := s.write.resetDiscard } ∧
       t.fill = { queue := [], engine := .idle, startTimeout := 2000, gapTimeout := 500,
                  lastEnd := s.fill.lastEnd } ∧
       t.mgmt = { bufA := .empty, bufB := .empty, mark := .A, seq := 0, executor := .idle, scan := [],
                  reading := none, refusing := false } ∧
       t.startup = { stage := if be then .poll else .run, outcome := if be then .ok else .disabled,
                     mapFaulted := false, failures := 0, position := 0, record := none, bootRead := none,
                     catalog := none, written := 0, committed := false } ∧
       t.events = (if be then { records := [], lost := 0, seq := 0 }
         else { records := [⟨.startupDone .disabled 0 0 s.write.resetDiscard, 0⟩], lost := 0, seq := 1 })))

/-- RESET: its response is placed, the other buffer emptied, the outstanding reads answered ERROR, held reads
first, and RETRY given to a presentation that waits for its enquiry, whose lookup result is discarded (the
model's choice, log 25), the write-queue entries counted, every block reset and the reset poll begun; a read
transfer of the other buffer's response goes on with nothing to send, and a write transfer into the other buffer
is acknowledged no further. That the overlay SRAM keeps its bytes, unreachable as R50 says, is the model's
choice (log 8). -/
def Obligations.SoftResetEffect : Prop :=
  ∀ (s : State) (b : BufId) (p : List Byte), s.handed 0x04 = some (b, p) →
    ∃ t, exec .reset s = .next t ∧
      (∃ q, s.mgmt.buf b = .executing ⟨0x04, p⟩ q ∧ t.mgmt.buf b = .answered ⟨.ok, 0x04, q, []⟩) ∧
      t.mgmt.buf b.other = .empty ∧ t.mgmt.executor = .idle ∧ t.mgmt.mark = s.mgmt.mark ∧
      t.mgmt.seq = s.mgmt.seq ∧ t.pins = s.pins ∧ t.pending = s.pending ∧
      (∀ r, s.mgmt.reading = some r →
        t.mgmt.reading = some (if r.source = some b.other then ⟨none, []⟩ else r)) ∧
      (t.mgmt.refusing = true ↔
        s.mgmt.refusing = true ∨ ∃ bytes, s.mgmt.buf b.other = .receiving bytes) ∧
      t.outputs = s.outputs ++ (s.port.held.map fun h => .errorTag h.tag) ++
        (s.port.readQueue.map fun q => .errorTag q.tag) ++
        (if s.port.looked = none then [] else [.answer .retry]) ++
        (if s.ctl.tx = none then [] else [.deselect]) ++ [.begins ⟨.readStatus, 8⟩] ∧
      t.port = { tags := [], readQueue := [], held := [], arrival := 0, looked := none } ∧
      t.write = { queue := [], highWater := 8, resetDiscard := s.write.queue.length } ∧
      t.fill = { queue := [], engine := .idle, startTimeout := 2000, gapTimeout := 500,
                 lastEnd := s.fill.engine.current.map fun i => (i, .reset) } ∧
      (∀ i, t.store.seg i = none) ∧ t.store.free = List.finRange 512 ∧ t.store.residence = [] ∧
      t.store.sram = s.store.sram ∧
      t.map.generation = 0 ∧ (∀ i : MapIndex, t.map.active[i] = none ∧ t.map.shadow[i] = none) ∧
      t.ctl = { link := .busyWait, holder := .poll, tx := some ⟨.readStatus, 8⟩, busyTimer := some 20,
                expired := false, aging := 0, busyTimeout := 20, divider := 8, loader := [] } ∧
      t.startup = { stage := if s.pins.bootEn then .poll else .run,
                    outcome := if s.pins.bootEn then .ok else .disabled,
                    mapFaulted := false, failures := 0, position := 0, record := none, bootRead := none,
                    catalog := none, written := 0, committed := false } ∧
      t.events = (if s.pins.bootEn then { records := [], lost := 0, seq := 0 }
        else { records := [⟨.startupDone .disabled 0 0 s.write.queue.length, 0⟩], lost := 0, seq := 1 })

/-! ### Host reads

Most statements take a presentation as one event, which needs a port where none waits for its enquiry (R51);
`PresentationInParts` says what the two events of any other one do. -/

/-- The three acceptance checks in their order (R54): RETRY while STARTING, ERROR with one event for a request
that crosses a window (R55), RETRY for a READ whose tag is outstanding. Nothing else changes. They are made in the
event that takes the presentation, whether its lookup's enquiry follows in it or later. That a request
presented while RESET_N is asserted is answered RETRY like any other while STARTING is the model's choice
(log 21). -/
def Obligations.AcceptanceChecks : Prop :=
  ∀ part : PresentPart, part ≠ .enquiry →
    (∀ (tag : Tag) (addr : Addr) (len : Nat) (s : State), s.port.looked = none →
      (s.startup.stage ≠ .run ∨ (addr.toNat % 32 + len ≤ 32 ∧ tag ∈ s.port.tags) →
        exec (.read tag addr ⟨len, part⟩) s = .next { s with outputs := s.outputs ++ [.answer .retry] }) ∧
      (s.startup.stage = .run → 32 < addr.toNat % 32 + len →
        exec (.read tag addr ⟨len, part⟩) s = .next { s with
          outputs := s.outputs ++ [.answer .error]
          events := s.events.post (.readFault tag addr.toNat len .align none) })) ∧
    ∀ (addr : Addr) (data : List Byte) (s : State), s.port.looked = none →
      (s.startup.stage ≠ .run →
        exec (.write addr ⟨data, part⟩) s = .next { s with outputs := s.outputs ++ [.answer .retry] }) ∧
      (s.startup.stage = .run → 32 < addr.toNat % 32 + data.length →
        exec (.write addr ⟨data, part⟩) s = .next { s with
          outputs := s.outputs ++ [.answer .error]
          events := s.events.post (.writeFault addr.toNat data.length .align none) })

/-- A presentation in two events. The lookup of a READ that hits, or of a WRITE that hits under DISCARD or
SHADOW, keeps its result and changes nothing else; every other one is routed in the same event. The enquiry then
answers by the state of the segment it finds, as the whole presentation would with a map in which the lookup
gives that result. A segment found UNDECLARED, which a MAP_COMMIT and a SEG_RELEASE between the two leave, sends
a READ downstream as a miss, and a WRITE is answered WACK with nothing counted under DISCARD and NOT_RESIDENT
under SHADOW. That the lookup and the enquiry may be two events of one command, that a miss, a THROUGH and a
FAULT write are routed with the lookup and the link state is read with the route, is the model's reading (log
25); that no other presentation begins meanwhile and no other enquiry is made is no event of the model (logs 2
and 25). -/
def Obligations.PresentationInParts : Prop :=
  (∀ (tag : Tag) (addr : Addr) (len : Nat) (s : State), s.port.looked = none → s.startup.stage = .run →
    addr.toNat % 32 + len ≤ 32 → tag ∉ s.port.tags →
    (∀ h, s.map.lookup addr.toNat len = some h → exec (.read tag addr ⟨len, .lookup⟩) s = .next { s with
      port := { s.port with looked := some (.read ⟨tag, addr.toNat, len⟩ h) } }) ∧
    (s.map.lookup addr.toNat len = none →
      exec (.read tag addr ⟨len, .lookup⟩) s = exec (.read tag addr ⟨len, .whole⟩) s)) ∧
  (∀ (tag : Tag) (addr : Addr) (len : Nat) (s : State) (h : Hit),
    s.port.looked = some (.read ⟨tag, addr.toNat, len⟩ h) →
    (∀ (m : MapUnit) (u : State), s.startup.stage = .run → addr.toNat % 32 + len ≤ 32 →
      tag ∉ s.port.tags → m.lookup addr.toNat len = some h →
      u = { s with map := m, port := { s.port with looked := none } } →
      ∃ t, exec (.read tag addr ⟨len, .enquiry⟩) s = .next t ∧ t.map = s.map ∧
        exec (.read tag addr ⟨len, .whole⟩) u = .next { t with map := m }) ∧
    (s.store.seg h.seg = none → exec (.read tag addr ⟨len, .enquiry⟩) s = .next
      (if s.memSize ≤ addr.toNat then { s with
        outputs := s.outputs ++ [.answer .error]
        events := s.events.post (.readFault tag addr.toNat len .range none)
        port := { s.port with looked := none } }
      else if s.ctl.link = .stalled then { s with
        outputs := s.outputs ++ [.answer .error]
        events := s.events.post (.readFault tag addr.toNat len .linkStalled none)
        port := { s.port with looked := none } }
      else { s with
        outputs := s.outputs ++ [.answer .accepted]
        port := { s.port with
          looked := none
          tags := tag :: s.port.tags
          readQueue := s.port.readQueue ++ [⟨tag, addr.toNat, len, false⟩] } }))) ∧
  (∀ (addr : Addr) (data : List Byte) (s : State), s.port.looked = none → s.startup.stage = .run →
    addr.toNat % 32 + data.length ≤ 32 →
    (∀ h, s.map.lookup addr.toNat data.length = some h → h.wpol = .discard ∨ h.wpol = .shadow →
      exec (.write addr ⟨data, .lookup⟩) s = .next { s with
        port := { s.port with looked := some (.write addr.toNat data h) } }) ∧
    ((∀ h, s.map.lookup addr.toNat data.length = some h → h.wpol = .through ∨ h.wpol = .fault) →
      exec (.write addr ⟨data, .lookup⟩) s = exec (.write addr ⟨data, .whole⟩) s)) ∧
  (∀ (addr : Addr) (data : List Byte) (s : State) (h : Hit), s.port.looked = some (.write addr.toNat data h) →
    (∀ (m : MapUnit) (u : State), s.startup.stage = .run → addr.toNat % 32 + data.length ≤ 32 →
      m.lookup addr.toNat data.length = some h →
      u = { s with map := m, port := { s.port with looked := none } } →
      ∃ t, exec (.write addr ⟨data, .enquiry⟩) s = .next t ∧ t.map = s.map ∧
        exec (.write addr ⟨data, .whole⟩) u = .next { t with map := m }) ∧
    (s.store.seg h.seg = none →
      (h.wpol = .discard → ∃ t, exec (.write addr ⟨data, .enquiry⟩) s = .next t ∧
        t.outputs = s.outputs ++ [.answer .wack] ∧ t.port = { s.port with looked := none } ∧
        (∀ i, t.store.seg i = s.store.seg i) ∧ t.store.free = s.store.free ∧ t.store.sram = s.store.sram ∧
        t.store.residence = s.store.residence ∧ SameBut [.outputs, .port, .store] s t) ∧
      (h.wpol = .shadow → exec (.write addr ⟨data, .enquiry⟩) s = .next { s with
        outputs := s.outputs ++ [.answer .error]
        events := s.events.post (.writeFault addr.toNat data.length .notResident (some h.seg))
        port := { s.port with looked := none } }))) ∧
  ∀ (tag : Tag) (addr : Addr) (len : Nat) (data : List Byte) (s : State),
    (s.port.looked ≠ none → ∀ part : PresentPart, part ≠ .enquiry →
      exec (.read tag addr ⟨len, part⟩) s = .next s ∧ exec (.write addr ⟨data, part⟩) s = .next s) ∧
    ((∀ h, s.port.looked ≠ some (.read ⟨tag, addr.toNat, len⟩ h)) →
      exec (.read tag addr ⟨len, .enquiry⟩) s = .next s) ∧
    ((∀ h, s.port.looked ≠ some (.write addr.toNat data h)) →
      exec (.write addr ⟨data, .enquiry⟩) s = .next s)

/-- A read that misses, or whose segment the store finds UNDECLARED, meets the two downstream checks and then
joins the read queue in LINK_WAIT. -/
def Obligations.ReadMissQueued : Prop :=
  ∀ (tag : Tag) (addr : Addr) (len : Nat) (s : State),
    s.port.looked = none → s.startup.stage = .run →
    addr.toNat % 32 + len ≤ 32 → tag ∉ s.port.tags →
    (s.map.lookup addr.toNat len = none ∨
      ∃ h, s.map.lookup addr.toNat len = some h ∧ s.store.seg h.seg = none) →
    exec (.read tag addr ⟨len, .whole⟩) s = .next
      (if s.memSize ≤ addr.toNat then { s with
        outputs := s.outputs ++ [.answer .error]
        events := s.events.post (.readFault tag addr.toNat len .range none) }
      else if s.ctl.link = .stalled then { s with
        outputs := s.outputs ++ [.answer .error]
        events := s.events.post (.readFault tag addr.toNat len .linkStalled none) }
      else { s with
        outputs := s.outputs ++ [.answer .accepted]
        port := { s.port with
          tags := tag :: s.port.tags
          readQueue := s.port.readQueue ++ [⟨tag, addr.toNat, len, false⟩] } })

/-- A hit on a RESIDENT segment is answered from the overlay at once, whatever the absence policy and the
memory size, and the segment becomes the most recently used. -/
def Obligations.ReadOverlayAnswered : Prop :=
  ∀ (tag : Tag) (addr : Addr) (len : Nat) (s : State) (h : Hit) (r : SegRecord),
    s.port.looked = none → s.startup.stage = .run →
    addr.toNat % 32 + len ≤ 32 → tag ∉ s.port.tags → s.map.lookup addr.toNat len = some h →
    s.store.seg h.seg = some r → r.state = .resident →
    exec (.read tag addr ⟨len, .whole⟩) s = .next { s with
      outputs := s.outputs ++ [.answer .accepted,
        .data tag ((List.range len).map fun i => overlayByte s.store.sram r.blocks (h.offset + i))]
      store := { s.store with residence := s.store.residence.erase h.seg ++ [h.seg] } }

/-- A HOLD read on an ABSENT, QUEUED, REQUESTED or FILLING segment parks, or is answered RETRY where there is
no room; on an ABSENT segment it also queues the fill. -/
def Obligations.ReadHoldParks : Prop :=
  ∀ (tag : Tag) (addr : Addr) (len : Nat) (s : State) (h : Hit) (r : SegRecord),
    s.port.looked = none → s.startup.stage = .run →
    addr.toNat % 32 + len ≤ 32 → tag ∉ s.port.tags → s.map.lookup addr.toNat len = some h →
    h.apol = .hold → s.store.seg h.seg = some r → r.state ≠ .resident → r.state ≠ .failed →
    ∃ t, exec (.read tag addr ⟨len, .whole⟩) s = .next t ∧
      if 8 ≤ s.port.held.length ∨ (r.state = .absent ∧ 8 ≤ s.fill.queue.length) then
        t = { s with outputs := s.outputs ++ [.answer .retry] }
      else
        t.outputs = s.outputs ++ [.answer .accepted] ∧
        t.port = { s.port with
          tags := tag :: s.port.tags
          held := s.port.held ++ [⟨tag, addr.toNat, len, h.seg, h.offset, s.port.arrival⟩]
          arrival := s.port.arrival + 1 } ∧
        t.store.seg h.seg = some { r with
          held := r.held + 1
          state := if r.state = .absent then .queued else r.state } ∧
        OtherSegsSame h.seg s t ∧ t.store.free = s.store.free ∧ t.store.sram = s.store.sram ∧
        t.store.residence = s.store.residence ∧
        t.fill = { s.fill with
          queue := if r.state = .absent then s.fill.queue ++ [h.seg] else s.fill.queue } ∧
        SameBut [.outputs, .port, .store, .fill] s t

/-- A PASS or QUIET read on a segment not RESIDENT goes downstream; under PASS an ABSENT segment is queued
where the fill queue has room. -/
def Obligations.ReadPassQueued : Prop :=
  ∀ (tag : Tag) (addr : Addr) (len : Nat) (s : State) (h : Hit) (r : SegRecord),
    s.port.looked = none → s.startup.stage = .run →
    addr.toNat % 32 + len ≤ 32 → tag ∉ s.port.tags → s.map.lookup addr.toNat len = some h →
    (h.apol = .pass ∨ h.apol = .quiet) → s.store.seg h.seg = some r → r.state ≠ .resident →
    addr.toNat < s.memSize → s.ctl.link ≠ .stalled →
    ∃ t, exec (.read tag addr ⟨len, .whole⟩) s = .next t ∧
      t.outputs = s.outputs ++ [.answer .accepted] ∧
      t.port = { s.port with
        tags := tag :: s.port.tags
        readQueue := s.port.readQueue ++ [⟨tag, addr.toNat, len, false⟩] } ∧
      SameBut [.outputs, .port, .store, .fill] s t ∧
      if h.apol = .pass ∧ r.state = .absent ∧ s.fill.queue.length < 8 then
        t.fill = { s.fill with queue := s.fill.queue ++ [h.seg] } ∧
        t.store.seg h.seg = some { r with state := .queued } ∧ OtherSegsSame h.seg s t ∧
        t.store.free = s.store.free ∧ t.store.sram = s.store.sram ∧
        t.store.residence = s.store.residence
      else t.fill = s.fill ∧ t.store = s.store

/-- The refusals of a request that hits: ERROR, one event that carries the segment, and nothing else. Of a READ:
SEG_FAILED and MAP_FAULT, and RANGE and LINK_STALLED under PASS or QUIET, which make no fill request.
Of a WRITE: a FAULT write in every segment state, and a SHADOW write on a segment not RESIDENT. -/
def Obligations.HitsRefused : Prop :=
  (∀ (tag : Tag) (addr : Addr) (len : Nat) (s : State) (h : Hit) (r : SegRecord) (reason : AccessFault),
     s.port.looked = none → s.startup.stage = .run → addr.toNat % 32 + len ≤ 32 → tag ∉ s.port.tags →
     s.map.lookup addr.toNat len = some h → s.store.seg h.seg = some r → r.state ≠ .resident →
     ((h.apol = .hold ∧ r.state = .failed ∧ reason = .segFailed) ∨
       (h.apol = .fault ∧ reason = .mapFault) ∨
       ((h.apol = .pass ∨ h.apol = .quiet) ∧ s.memSize ≤ addr.toNat ∧ reason = .range) ∨
       ((h.apol = .pass ∨ h.apol = .quiet) ∧ addr.toNat < s.memSize ∧ s.ctl.link = .stalled ∧
         reason = .linkStalled)) →
     exec (.read tag addr ⟨len, .whole⟩) s = .next { s with
       outputs := s.outputs ++ [.answer .error]
       events := s.events.post (.readFault tag addr.toNat len reason (some h.seg)) }) ∧
  ∀ (addr : Addr) (data : List Byte) (s : State) (h : Hit) (reason : AccessFault),
    s.port.looked = none → s.startup.stage = .run →
    addr.toNat % 32 + data.length ≤ 32 → s.map.lookup addr.toNat data.length = some h →
    ((h.wpol = .fault ∧ reason = .writeFault) ∨
      (h.wpol = .shadow ∧ (∀ r, s.store.seg h.seg = some r → r.state ≠ .resident) ∧
        reason = .notResident)) →
    exec (.write addr ⟨data, .whole⟩) s = .next { s with
      outputs := s.outputs ++ [.answer .error]
      events := s.events.post (.writeFault addr.toNat data.length reason (some h.seg)) }

/-! ### Host writes -/

/-- Write-queue admission of a miss or a THROUGH hit (R109). -/
def Obligations.WriteAdmission : Prop :=
  ∀ (addr : Addr) (data : List Byte) (s : State) (seg : Option SegId),
    s.port.looked = none → s.startup.stage = .run →
    addr.toNat % 32 + data.length ≤ 32 →
    ((s.map.lookup addr.toNat data.length = none ∧ seg = none) ∨
      ∃ h, s.map.lookup addr.toNat data.length = some h ∧ h.wpol = .through ∧ seg = some h.seg) →
    exec (.write addr ⟨data, .whole⟩) s = .next
      (if s.memSize ≤ addr.toNat then { s with
        outputs := s.outputs ++ [.answer .error]
        events := s.events.post (.writeFault addr.toNat data.length .range seg) }
      else if s.ctl.link = .stalled then { s with
        outputs := s.outputs ++ [.answer .error]
        events := s.events.post (.writeFault addr.toNat data.length .linkStalled seg) }
      else if 8 ≤ s.write.queue.length ∨ s.write.highWater ≤ s.write.queue.length then
        { s with outputs := s.outputs ++ [.answer .retry] }
      else { s with
        outputs := s.outputs ++ [.answer .wack]
        write := { s.write with queue := s.write.queue ++ [⟨addr.toNat, data, false⟩] } })

/-- A SHADOW write on a RESIDENT segment is stored in the overlay, sets dirty and touches the segment; every
other byte of overlay memory reads as before.
Bytes stored at an offset of a segment read back, in a memory in canonical form and a block list without
repeats that reaches them. -/
def Obligations.WriteShadowStored : Prop :=
  (∀ (addr : Addr) (data : List Byte) (s : State) (h : Hit) (r : SegRecord),
     s.port.looked = none → s.startup.stage = .run →
     addr.toNat % 32 + data.length ≤ 32 → s.map.lookup addr.toNat data.length = some h →
     h.wpol = .shadow → s.store.seg h.seg = some r → r.state = .resident →
     ∃ t, exec (.write addr ⟨data, .whole⟩) s = .next t ∧ t.outputs = s.outputs ++ [.answer .wack] ∧
       t.store.sram = overlayStore r.blocks data h.offset s.store.sram ∧
       (MemoryLaw s → MemorySameOutside (KeysOf r.blocks h.offset data.length) s t) ∧
       t.store.seg h.seg = some { r with dirty := true } ∧ OtherSegsSame h.seg s t ∧
       t.store.residence = s.store.residence.erase h.seg ++ [h.seg] ∧ t.store.free = s.store.free ∧
       SameBut [.outputs, .store] s t) ∧
  (∀ (blocks : List Block) (data : List Byte) (o : Nat) (m : List Host.Cell), Memory.wf m → blocks.Nodup →
     o + data.length ≤ blocks.length * 256 →
     overlayBytes (overlayStore blocks data o m) blocks o data.length = data)

/-- A DISCARD write is acknowledged and counted, saturating, in every declared state; on a segment that the
store finds UNDECLARED it is acknowledged and nothing is counted. -/
def Obligations.WriteDiscardCounted : Prop :=
  ∀ (addr : Addr) (data : List Byte) (s : State) (h : Hit), s.port.looked = none → s.startup.stage = .run →
    addr.toNat % 32 + data.length ≤ 32 → s.map.lookup addr.toNat data.length = some h →
    h.wpol = .discard →
    ∃ t, exec (.write addr ⟨data, .whole⟩) s = .next t ∧ t.outputs = s.outputs ++ [.answer .wack] ∧
      t.store.seg h.seg =
        (s.store.seg h.seg).map (fun r => { r with discards := min 65535 (r.discards + 1) }) ∧
      OtherSegsSame h.seg s t ∧ t.store.sram = s.store.sram ∧ t.store.free = s.store.free ∧
      t.store.residence = s.store.residence ∧ SameBut [.outputs, .store] s t

/-! ### The overlay map -/

/-- MAP_WRITE: the payload holds the index at offset 0 and after it the eleven bytes of a map entry, each number
least significant byte first, and so does an entry of the boot record. With every argument legal, the entry at
the index becomes valid with the arguments; with any argument not legal, BAD_ARGUMENT and nothing changes. The
policies have the codes of 10.7. -/
def Obligations.MapWriteEffect : Prop :=
  ([WritePolicy.discard, .through, .shadow, .fault].map WritePolicy.code = [0x00, 0x01, 0x02, 0x03] ∧
    [AbsencePolicy.hold, .pass, .quiet, .fault].map AbsencePolicy.code = [0x00, 0x01, 0x02, 0x03]) ∧
  (∀ x0 x1 x2 x3 x4 x5 x6 x7 x8 x9 x10 x11 : Byte,
    rawEntry [x0, x1, x2, x3, x4, x5, x6, x7, x8, x9, x10, x11] = {
      index := x0.toNat
      base := x1.toNat + 256 * x2.toNat + 65536 * x3.toNat
      size := x4.toNat + 256 * x5.toNat + 65536 * x6.toNat
      seg := x7.toNat
      offset := x8.toNat + 256 * x9.toNat
      wpol := x10.toNat
      apol := x11.toNat }) ∧
  ∀ (s : State) (b : BufId) (p : List Byte) (r : RawEntry), s.handed 0x10 = some (b, p) → r = rawEntry p →
    ∃ t, exec .mapWrite s = .next t ∧
      ((∃ (i : MapIndex) (seg : SegId) (w : WritePolicy) (a : AbsencePolicy),
          r.index = i.val ∧ r.seg = segNum seg ∧ r.wpol = w.code.toNat ∧ r.apol = a.code.toNat ∧
          MapEntry.Legal ⟨r.base, r.size, seg, r.offset, w, a⟩ ∧ Answered b .ok [] s t ∧
          t.map.shadow[i] = some ⟨r.base, r.size, seg, r.offset, w, a⟩ ∧
          (∀ j : MapIndex, j ≠ i → t.map.shadow[j] = s.map.shadow[j]) ∧
          t.map.active = s.map.active ∧ t.map.generation = s.map.generation ∧
          SameBut [.map, .mgmt] s t) ∨
        ((∀ (i : MapIndex) (seg : SegId) (w : WritePolicy) (a : AbsencePolicy),
            r.index = i.val → r.seg = segNum seg → r.wpol = w.code.toNat → r.apol = a.code.toNat →
            ¬ MapEntry.Legal ⟨r.base, r.size, seg, r.offset, w, a⟩) ∧
          Answered b .badArgument [] s t ∧ SameBut [.mgmt] s t))

/-- MAP_CLEAR: one entry, all of them with FFh, or BAD_ARGUMENT for 20h to FEh. MAP_COPY: all 32 entries of
ACTIVE into SHADOW, which a commit would then accept. Neither changes ACTIVE or the generation.
MAP_READ: the entry of the named bank in fourteen bytes and the generation, eleven zero bytes for an
invalid entry, BAD_ARGUMENT for a bank control above 1 or an index above 31; no bank changes. -/
def Obligations.MapClearCopyRead : Prop :=
  (∀ (s : State) (b : BufId) (p : List Byte) (n : Nat), s.handed 0x11 = some (b, p) →
    n = (byteAt p 0).toNat →
    ∃ t, exec .mapClear s = .next t ∧ t.map.active = s.map.active ∧
      t.map.generation = s.map.generation ∧ SameBut [.map, .mgmt] s t ∧
      (if n < 32 ∨ n = 255 then Answered b .ok [] s t ∧
        ∀ j : MapIndex, t.map.shadow[j] = if j.val = n ∨ n = 255 then none else s.map.shadow[j]
      else Answered b .badArgument [] s t ∧ t.map.shadow = s.map.shadow)) ∧
  (∀ (s : State) (b : BufId) (p : List Byte), s.handed 0x12 = some (b, p) →
    ∃ t, exec .mapCopy s = .next t ∧ Answered b .ok [] s t ∧
      t.map = { s.map with shadow := s.map.active } ∧ SameBut [.map, .mgmt] s t ∧
      (ActiveLaw s → t.map.shadow.validate t.store = none)) ∧
  ∀ (s : State) (b : BufId) (p : List Byte), s.handed 0x13 = some (b, p) →
    ∃ t, exec .mapRead s = .next t ∧ SameBut [.mgmt] s t ∧
      if 1 < (byteAt p 0).toNat ∨ 31 < (byteAt p 1).toNat then Answered b .badArgument [] s t
      else ∀ i : MapIndex, (byteAt p 1).toNat = i.val →
        match (if byteAt p 0 = 1 then s.map.shadow else s.map.active)[i] with
        | some e => Answered b .ok ([byteAt p 0, byte i.val, 1] ++ leBytes 3 e.base ++ leBytes 3 e.size ++
            [byte (segNum e.seg)] ++ leBytes 2 e.offset ++ [e.wpol.code, e.apol.code] ++
            leBytes 2 s.map.generation.toNat) s t
        | none => Answered b .ok ([byteAt p 0, byte i.val] ++ List.replicate 12 0 ++
            leBytes 2 s.map.generation.toNat) s t

/-- Validation finds no fault exactly in a bank that may stand in ACTIVE; a fault it finds is that of the
lowest failing index, with the first failing check's reason and, for OVERLAP, the lowest overlapping index. -/
def Obligations.CommitValidation : Prop :=
  ∀ (bank : Bank) (st : Store), (bank.validate st = none ↔ bank.Consistent st) ∧
    ∀ f, bank.validate st = some f →
      (∀ j : MapIndex, j < f.index → bank.faultAt st j = none) ∧
      ∃ e, bank[f.index] = some e ∧
        match f.reason with
        | .undeclaredSegment => st.seg e.seg = none ∧ f.other = none
        | .beyondSegment => f.other = none ∧
            ∃ r, st.seg e.seg = some r ∧ (r.length + 255) / 256 * 256 < e.offset + e.size
        | .overlap =>
            (∃ r, st.seg e.seg = some r ∧ e.offset + e.size ≤ (r.length + 255) / 256 * 256) ∧
            ∃ (j : MapIndex) (g : MapEntry), f.other = some j ∧ j < f.index ∧ bank[j] = some g ∧
              e.base < g.base + g.size ∧ g.base < e.base + e.size ∧
              ∀ (k : MapIndex) (u : MapEntry), k < j → bank[k] = some u →
                ¬ (e.base < u.base + u.size ∧ u.base < e.base + e.size)

/-- MAP_COMMIT: a consistent SHADOW becomes ACTIVE and the generation rises, from 65535 to 1; otherwise
INVALID_MAP with the first fault, its reason in the codes of 10.7, and nothing changes. -/
def Obligations.MapCommitEffect : Prop :=
  [CommitReason.undeclaredSegment, .beyondSegment, .overlap].map CommitReason.code = [0x01, 0x02, 0x03] ∧
  ∀ (s : State) (b : BufId) (p : List Byte) (g : BitVec 16), s.handed 0x14 = some (b, p) →
    g = (if s.map.generation.toNat = 65535 then 1 else s.map.generation + 1) →
    ∃ t, exec .mapCommit s = .next t ∧ t.map.shadow = s.map.shadow ∧ SameBut [.map, .mgmt] s t ∧
      ((s.map.shadow.Consistent s.store ∧ t.map.active = s.map.shadow ∧ t.map.generation = g ∧
          Answered b .ok (leBytes 2 g.toNat) s t) ∨
        (¬ s.map.shadow.Consistent s.store ∧ t.map = s.map ∧
          ∃ f, s.map.shadow.validate s.store = some f ∧
            Answered b .invalidMap [byte f.index.val, f.reason.code,
              match f.other with
              | some j => byte j.val
              | none => 0xFF] s t))

/-- Lookup in a consistent ACTIVE bank: a request inside a valid entry hits that entry, with the segment
byte offset address − base + segment offset, which lies inside the segment's blocks; a request inside none
misses. -/
def Obligations.LookupHits : Prop :=
  ∀ (s : State) (addr len : Nat), ActiveLaw s → 0 < len →
    (∀ (i : MapIndex) (e : MapEntry), s.map.active[i] = some e → e.base ≤ addr →
      addr + len ≤ e.base + e.size →
      s.map.lookup addr len = some ⟨i, e.seg, addr - e.base + e.offset, e.wpol, e.apol⟩ ∧
      ∃ r, s.store.seg e.seg = some r ∧
        addr - e.base + e.offset + len ≤ (r.length + 255) / 256 * 256) ∧
    ((∀ (i : MapIndex) (e : MapEntry), s.map.active[i] = some e →
        ¬ (e.base ≤ addr ∧ addr + len ≤ e.base + e.size)) → s.map.lookup addr len = none)

/-! ### Segments -/

/-- The checks that come first in the commands on a segment: a reserved bit, an id that is none, an
UNDECLARED segment. SEG_DECLARE and SEG_QUERY are not among them. -/
def Obligations.SegmentRefusals : Prop :=
  (∀ (code : Byte) (c : Instr) (s : State) (b : BufId) (p : List Byte),
    (code, c) ∈ [((0x21 : Byte), Instr.segRelease), (0x22, .segDrop), (0x23, .segPin)] →
    s.handed code = some (b, p) →
    (1 < (byteAt p 1).toNat ∨ segId? (byteAt p 0).toNat = none →
      ∃ t, exec c s = .next t ∧ Answered b .badArgument [] s t ∧ SameBut [.mgmt] s t) ∧
    ∀ i, (byteAt p 1).toNat ≤ 1 → segId? (byteAt p 0).toNat = some i → s.store.seg i = none →
      ∃ t, exec c s = .next t ∧ Answered b .notFound [] s t ∧ SameBut [.mgmt] s t) ∧
  ∀ (code : Byte) (c : Instr) (s : State) (b : BufId) (p : List Byte),
    (code, c) ∈ [((0x25 : Byte), Instr.segRead), (0x30, .preload), (0x31, .fillBegin)] →
    s.handed code = some (b, p) →
    (segId? (byteAt p 0).toNat = none →
      ∃ t, exec c s = .next t ∧ Answered b .badArgument [] s t ∧ SameBut [.mgmt] s t) ∧
    ∀ i, segId? (byteAt p 0).toNat = some i → s.store.seg i = none →
      ∃ t, exec c s = .next t ∧ Answered b .notFound [] s t ∧ SameBut [.mgmt] s t

/-- SEG_DECLARE: the checks in their order, and the fields of a record just declared. -/
def Obligations.SegDeclareEffect : Prop :=
  ∀ (s : State) (b : BufId) (p : List Byte) (len : Nat), s.handed 0x20 = some (b, p) →
    len = field p 1 3 →
    ∃ t, exec .segDeclare s = .next t ∧
      match segId? (byteAt p 0).toNat with
      | none => Answered b .badArgument [] s t ∧ SameBut [.mgmt] s t
      | some i =>
        if len = 0 ∨ 65536 < len ∨ 1 < (byteAt p 6).toNat then
          Answered b .badArgument [] s t ∧ SameBut [.mgmt] s t
        else if s.store.seg i ≠ none then Answered b .exists_ [] s t ∧ SameBut [.mgmt] s t
        else
          Answered b .ok [] s t ∧ SameBut [.store, .mgmt] s t ∧ OtherSegsSame i s t ∧
          t.store.free = s.store.free ∧ t.store.sram = s.store.sram ∧
          t.store.residence = s.store.residence ∧
          t.store.seg i = some {
            state := .absent, source := .host, length := len, crc := BitVec.ofNat 16 (field p 4 2)
            pinned := decide (byteAt p 6 = 1), dirty := false, blocks := [], held := 0
            discards := 0, fills := 0, lastFailure := none, origin := none }

/-- SEG_RELEASE: refused IN_USE, BUSY or DIRTY in that order, otherwise the record is discarded, the blocks
of a RESIDENT segment join the free-list tail and a QUEUED id leaves the fill queue. -/
def Obligations.SegReleaseEffect : Prop :=
  ∀ (s : State) (b : BufId) (p : List Byte) (i : SegId) (r : SegRecord), s.handed 0x21 = some (b, p) →
    (byteAt p 0).toNat = segNum i → (byteAt p 1).toNat ≤ 1 → s.store.seg i = some r →
    ∃ t, exec .segRelease s = .next t ∧
      ((∃ (k : MapIndex) (e : MapEntry), s.map.active[k] = some e ∧ e.seg = i) →
        Answered b .inUse [] s t ∧ SameBut [.mgmt] s t) ∧
      ((∀ (k : MapIndex) (e : MapEntry), s.map.active[k] = some e → e.seg ≠ i) →
        if r.state = .requested ∨ r.state = .filling ∨ 0 < r.held then
          Answered b .busy [] s t ∧ SameBut [.mgmt] s t
        else if r.dirty = true ∧ byteAt p 1 = 0 then Answered b .dirty [] s t ∧ SameBut [.mgmt] s t
        else
          Answered b .ok [] s t ∧ SameBut [.store, .fill, .mgmt] s t ∧ t.store.seg i = none ∧
          OtherSegsSame i s t ∧ t.store.sram = s.store.sram ∧
          t.store.free = (if r.state = .resident then s.store.free ++ r.blocks else s.store.free) ∧
          t.store.residence =
            (if r.state = .resident then s.store.residence.erase i else s.store.residence) ∧
          t.fill = { s.fill with
            queue := if r.state = .queued then s.fill.queue.erase i else s.fill.queue })

/-- SEG_DROP by the segment's state (R46). -/
def Obligations.SegDropEffect : Prop :=
  ∀ (s : State) (b : BufId) (p : List Byte) (i : SegId) (r : SegRecord), s.handed 0x22 = some (b, p) →
    (byteAt p 0).toNat = segNum i → s.store.seg i = some r →
    ∃ t, exec .segDrop s = .next t ∧
      if 1 < (byteAt p 1).toNat then Answered b .badArgument [] s t ∧ SameBut [.mgmt] s t
      else if r.state = .resident ∧ r.dirty = true ∧ byteAt p 1 = 0 then
        Answered b .dirty [] s t ∧ SameBut [.mgmt] s t
      else if r.state = .resident then
        Answered b .ok [] s t ∧ SameBut [.store, .mgmt] s t ∧ OtherSegsSame i s t ∧
        t.store.seg i = some { r with state := .absent, dirty := false, blocks := [] } ∧
        t.store.free = s.store.free ++ r.blocks ∧ t.store.residence = s.store.residence.erase i ∧
        t.store.sram = s.store.sram
      else if r.state = .failed then
        Answered b .ok [] s t ∧ SameBut [.store, .mgmt] s t ∧ OtherSegsSame i s t ∧
        t.store.seg i = some { r with state := .absent } ∧ t.store.free = s.store.free ∧
        t.store.residence = s.store.residence ∧ t.store.sram = s.store.sram
      else Answered b .wrongState [] s t ∧ SameBut [.mgmt] s t

/-- SEG_PIN sets or clears the pinned flag in any declared state and changes nothing else. -/
def Obligations.SegPinEffect : Prop :=
  ∀ (s : State) (b : BufId) (p : List Byte) (i : SegId) (r : SegRecord), s.handed 0x23 = some (b, p) →
    (byteAt p 0).toNat = segNum i → s.store.seg i = some r →
    ∃ t, exec .segPin s = .next t ∧
      if (byteAt p 1).toNat ≤ 1 then
        Answered b .ok [] s t ∧ SameBut [.store, .mgmt] s t ∧ OtherSegsSame i s t ∧
        t.store.seg i = some { r with pinned := decide (byteAt p 1 = 1) } ∧
        t.store.free = s.store.free ∧ t.store.residence = s.store.residence ∧
        t.store.sram = s.store.sram
      else Answered b .badArgument [] s t ∧ SameBut [.mgmt] s t

/-- SEG_QUERY: the 24 bytes of the record of any id from 1 to 62, declared or not, BAD_ARGUMENT for any other
id, and no change; states and failure reasons have the codes of 10.7.
SEG_READ: the checks in their order, and the overlay bytes of a RESIDENT segment without a touch. -/
def Obligations.SegInspected : Prop :=
  [SegState.absent, .queued, .requested, .filling, .resident, .failed].map SegState.code =
    [0x01, 0x02, 0x03, 0x04, 0x05, 0x06] ∧
  [FailReason.startTimeout, .dataTimeout, .crc, .length, .noSpace, .aborted, .dnStalled].map FailReason.code =
    [0x01, 0x02, 0x03, 0x04, 0x05, 0x06, 0x07] ∧
  (∀ (s : State) (b : BufId) (p : List Byte), s.handed 0x24 = some (b, p) →
     ∃ t, exec .segQuery s = .next t ∧ SameBut [.mgmt] s t ∧
       match segId? (byteAt p 0).toNat with
       | none => Answered b .badArgument [] s t
       | some i =>
         match s.store.seg i with
         | none => Answered b .ok ([byte (segNum i), 0, 0, 0xFF, 0xFF, 0xFF] ++ List.replicate 8 0 ++
             [0xFF, 0xFF] ++ List.replicate 8 0) s t
         | some r => Answered b .ok
           ([byte (segNum i), r.state.code,
               match r.source with
               | .catalog _ => 0x01
               | .host => 0x02] ++
             leBytes 3 (match r.source with
               | .catalog image => image
               | .host => 0xFFFFFF) ++
             leBytes 3 r.length ++ leBytes 2 r.crc.toNat ++
             [byte ((if r.pinned then 1 else 0) + (if r.dirty then 2 else 0))] ++
             leBytes 2 r.blocks.length ++
             leBytes 2 (match r.blocks with
               | k :: _ => k.val
               | [] => 0xFFFF) ++
             [byte (if i ∈ s.store.residence then s.store.residence.idxOf i + 1 else 0), byte r.held] ++
             leBytes 2 r.discards ++ leBytes 2 r.fills ++
             [match r.lastFailure with
               | some f => f.code
               | none => 0x00,
              match r.origin with
               | none => 0x00
               | some .queue => 0x01
               | some (.direct .absent) => 0x02
               | some (.direct .failed) => 0x03]) s t) ∧
  (∀ (s : State) (b : BufId) (p : List Byte) (i : SegId) (r : SegRecord), s.handed 0x25 = some (b, p) →
     (byteAt p 0).toNat = segNum i → s.store.seg i = some r →
     ∃ t, exec .segRead s = .next t ∧ SameBut [.mgmt] s t ∧
       if (byteAt p 3).toNat = 0 ∨ 64 < (byteAt p 3).toNat ∨
           (r.length + 255) / 256 * 256 < field p 1 2 + (byteAt p 3).toNat then
         Answered b .badArgument [] s t
       else if r.state = .resident then
         Answered b .ok ((List.range (byteAt p 3).toNat).map fun j =>
           overlayByte s.store.sram r.blocks (field p 1 2 + j)) s t
       else Answered b .wrongState [] s t)

/-- An allocation is refused exactly when the reachable count, the free blocks and those of the evictable
segments (RESIDENT, not pinned, not dirty), is below n. Granted, it hands out n blocks from the head of the
free list; the blocks it hands out, the free list and the block lists are together the blocks there were.
It evicts the least recently used evictable segments in residence order, each only while the free count is
still below n: an evicted segment becomes ABSENT without blocks and leaves the residence list, its blocks
join the free-list tail in eviction order, and one EVICTED event each carries its id, its block count and the
segment that needed the blocks. -/
def Obligations.AllocationConserves : Prop :=
  ∀ (st : Store) (n : Nat) (i : SegId), st.residence.Nodup →
    (st.allocate n i = none ↔ st.reachable < n) ∧
    st.reachable = st.free.length +
      ((st.residence.filter st.evictable).map fun j => (st.blocksOf j).length).sum ∧
    (∀ j, st.evictable j = true ↔
      ∃ r, st.seg j = some r ∧ r.state = .resident ∧ r.pinned = false ∧ r.dirty = false) ∧
    ∀ bs st' evs, st.allocate n i = some (bs, st', evs) →
      bs.length = n ∧ (bs ++ st'.free ++ st'.allBlocks).Perm (st.free ++ st.allBlocks) ∧
      st'.sram = st.sram ∧ (n ≤ st.free.length → evs = [] ∧ bs = st.free.take n) ∧
      ∃ (evicted : List SegId) (k : Nat), evicted = (st.residence.filter st.evictable).take k ∧
        (∀ m, m < evicted.length →
          st.free.length + ((evicted.take m).map fun j => (st.blocksOf j).length).sum < n) ∧
        evs = evicted.map (fun j => .evicted j (st.blocksOf j).length i) ∧
        bs ++ st'.free = st.free ++ evicted.flatMap st.blocksOf ∧
        st'.residence = st.residence.filter (fun j => decide (j ∉ evicted)) ∧
        (∀ j, j ∈ evicted →
          st'.seg j = (st.seg j).map fun r => { r with state := .absent, blocks := [] }) ∧
        ∀ j, j ∉ evicted → st'.seg j = st.seg j

/-! ### Fills -/

/-- A fill that fails: blocks freed, FAILED, held reads errored in arrival order, FILL_FAILED, last end,
IDLE (R96, R34, R70). Nothing else changes.
The expiry of a running start timer or gap timer fails the current fill; that the expiry of a stopped one
changes nothing is the model's choice (log 2). -/
def Obligations.FillFailure : Prop :=
  (∀ (i : SegId) (reason : FailReason) (s t : State) (r : SegRecord), s.store.seg i = some r →
     t = failFill i reason s →
     t.store.seg i =
         some { r with state := .failed, blocks := [], lastFailure := some reason, origin := none, held := 0 } ∧
       OtherSegsSame i s t ∧ t.store.free = s.store.free ++ r.blocks ∧
       t.store.residence = s.store.residence ∧ t.store.sram = s.store.sram ∧
       t.outputs = s.outputs ++ (s.port.heldFor i).map (fun h => .errorTag h.tag) ∧
       t.port.held = s.port.held.filter (fun h => decide (h.seg ≠ i)) ∧
       t.port.tags = s.port.tags.filter (fun g => decide (g ∉ (s.port.heldFor i).map (·.tag))) ∧
       t.port.readQueue = s.port.readQueue ∧ t.port.arrival = s.port.arrival ∧
       t.port.looked = s.port.looked ∧
       t.events = s.events.post (.fillFailed i reason (s.port.heldFor i).length) ∧
       t.fill = { s.fill with engine := .idle, lastEnd := some (i, .failed reason) } ∧
       SameBut [.store, .port, .outputs, .events, .fill] s t) ∧
  ((∀ (s : State) (i : SegId) (d : Nat), s.fill.engine = .awaitHost i d →
     exec .startTimerExpiry s = .next (failFill i .startTimeout s)) ∧
   (∀ (s : State) (i : SegId) (o : Origin) (n : Nat) (c : BitVec 16) (d : Nat),
     s.fill.engine = .loadingHost i o n c d → exec .gapTimerExpiry s = .next (failFill i .dataTimeout s)) ∧
   (∀ s : State, (∀ i d, s.fill.engine ≠ .awaitHost i d) → exec .startTimerExpiry s = .next s) ∧
   ∀ s : State, (∀ i o n c d, s.fill.engine ≠ .loadingHost i o n c d) → exec .gapTimerExpiry s = .next s)

/-- A fill that is complete: pad bytes 00h, RESIDENT, fill count, most recently used, held reads answered from
the overlay in arrival order, FILL_DONE, last end, IDLE (R95, R32, R69). Nothing else changes: every byte of
overlay memory but the pad bytes reads as before. -/
def Obligations.FillCompletion : Prop :=
  ∀ (i : SegId) (o : Origin) (s t : State) (r : SegRecord), s.store.seg i = some r →
    t = completeFill i o s →
    t.store.seg i = some { r with
        state := .resident, origin := none, fills := min 65535 (r.fills + 1), held := 0 } ∧
      OtherSegsSame i s t ∧ t.store.free = s.store.free ∧
      t.store.residence = s.store.residence.erase i ++ [i] ∧
      t.store.sram =
        overlayStore r.blocks (List.replicate (r.blocks.length * 256 - r.length) 0) r.length s.store.sram ∧
      (MemoryLaw s →
        MemorySameOutside (KeysOf r.blocks r.length (r.blocks.length * 256 - r.length)) s t) ∧
      t.outputs = s.outputs ++ (s.port.heldFor i).map (fun h =>
        .data h.tag (overlayBytes t.store.sram r.blocks h.offset h.len)) ∧
      t.port.held = s.port.held.filter (fun h => decide (h.seg ≠ i)) ∧
      t.port.tags = s.port.tags.filter (fun g => decide (g ∉ (s.port.heldFor i).map (·.tag))) ∧
      t.port.readQueue = s.port.readQueue ∧ t.port.arrival = s.port.arrival ∧
      t.port.looked = s.port.looked ∧
      t.events = s.events.post (.fillDone i o (s.port.heldFor i).length) ∧
      t.fill = { s.fill with engine := .idle, lastEnd := some (i, .done) } ∧
      SameBut [.store, .port, .outputs, .events, .fill] s t

/-- The idle engine takes a host segment from the head: REQUESTED, AWAIT_HOST with START_TIMEOUT,
FILL_REQUEST.
The idle engine takes a catalog segment from the head: DN_STALLED, LENGTH or NO_SPACE, in that order, or
FILLING with the granted blocks and the first chunk handed to the loader. -/
def Obligations.TakeHeadEffect : Prop :=
  (∀ (s : State) (i : SegId) (rest : List SegId) (r : SegRecord), s.fill.engine = .idle →
     s.fill.queue = i :: rest → s.store.seg i = some r → r.source = .host →
     ∃ t, exec .takeHead s = .next t ∧
       t.fill = { s.fill with queue := rest, engine := .awaitHost i s.fill.startTimeout } ∧
       t.store.seg i = some { r with state := .requested, origin := some .queue } ∧ OtherSegsSame i s t ∧
       t.store.free = s.store.free ∧ t.store.sram = s.store.sram ∧
       t.store.residence = s.store.residence ∧
       t.events = s.events.post (.fillRequest i r.length r.crc r.held) ∧
       SameBut [.fill, .store, .events] s t) ∧
  (∀ (s : State) (i : SegId) (rest : List SegId) (r : SegRecord) (image : Nat), s.fill.engine = .idle →
     s.fill.queue = i :: rest → s.store.seg i = some r → r.source = .catalog image → r.state = .queued →
     ∃ t, exec .takeHead s = .next t ∧
       if s.ctl.link = .stalled then
         t = failFill i .dnStalled { s with fill := { s.fill with queue := rest } }
       else if s.memSize < image + r.length then
         t = failFill i .length { s with fill := { s.fill with queue := rest } }
       else
         match s.store.allocate ((r.length + 255) / 256) i with
         | none => t = failFill i .noSpace { s with fill := { s.fill with queue := rest } }
         | some (bs, st, evs) =>
           t.fill = { s.fill with queue := rest, engine := .loadingCatalog i .queue 0 0xFFFF } ∧
           t.store.seg i = some { r with state := .filling, blocks := bs, origin := some .queue } ∧
           (∀ j, j ≠ i → t.store.seg j = st.seg j) ∧ t.store.free = st.free ∧
           t.store.residence = st.residence ∧ t.store.sram = s.store.sram ∧
           t.events = s.events.postAll evs ∧
           t.ctl = { s.ctl with loader := s.ctl.loader ++
             [⟨.fill, image, min (32 - image % 32) r.length, false, false⟩] } ∧
           SameBut [.fill, .store, .events, .ctl] s t)

/-- PRELOAD of a declared segment by its state (R94), which the response names in the codes of 10.7. -/
def Obligations.PreloadEffect : Prop :=
  [SegState.queued, .requested, .filling, .resident].map SegState.code = [0x02, 0x03, 0x04, 0x05] ∧
  ∀ (s : State) (b : BufId) (p : List Byte) (i : SegId) (r : SegRecord), s.handed 0x30 = some (b, p) →
    (byteAt p 0).toNat = segNum i → s.store.seg i = some r →
    ∃ t, exec .preload s = .next t ∧
      if r.state ≠ .absent ∧ r.state ≠ .failed then
        Answered b .ok [r.state.code] s t ∧ SameBut [.mgmt] s t
      else if 8 ≤ s.fill.queue.length then Answered b .full [] s t ∧ SameBut [.mgmt] s t
      else
        Answered b .ok [0x02] s t ∧ SameBut [.store, .fill, .mgmt] s t ∧
        t.fill = { s.fill with queue := s.fill.queue ++ [i] } ∧
        t.store.seg i = some { r with state := .queued } ∧ OtherSegsSame i s t ∧
        t.store.free = s.store.free ∧ t.store.sram = s.store.sram ∧
        t.store.residence = s.store.residence

/-- FILL_BEGIN granted: of the awaited queue-origin fill, or a direct fill of an ABSENT or FAILED segment
while the engine is IDLE.
FILL_BEGIN of a declared segment refused BUSY or WRONG_STATE, and its NO_SPACE outcome, which fails the
awaited or the direct fill. -/
def Obligations.FillBeginEffect : Prop :=
  (∀ (s : State) (b : BufId) (p : List Byte) (i : SegId) (r : SegRecord) (o : Origin) (bs : List Block)
     (st : Store) (evs : List Event), s.handed 0x31 = some (b, p) → (byteAt p 0).toNat = segNum i →
     s.store.seg i = some r → r.state ≠ .resident →
     ((∃ d, s.fill.engine = .awaitHost i d) ∧ o = .queue ∨
       s.fill.engine = .idle ∧ r.state = .absent ∧ o = .direct .absent ∨
       s.fill.engine = .idle ∧ r.state = .failed ∧ o = .direct .failed) →
     s.store.allocate ((r.length + 255) / 256) i = some (bs, st, evs) →
     ∃ t, exec .fillBegin s = .next t ∧
       Answered b .ok (0x00 :: leBytes 2 ((r.length + 255) / 256)) s t ∧
       t.fill = { s.fill with engine := .loadingHost i o 0 0xFFFF s.fill.gapTimeout } ∧
       t.store.seg i = some { r with state := .filling, blocks := bs, origin := some o } ∧
       (∀ j, j ≠ i → t.store.seg j = st.seg j) ∧ t.store.free = st.free ∧
       t.store.residence = st.residence ∧ t.store.sram = s.store.sram ∧
       t.events = s.events.postAll evs ∧ SameBut [.fill, .store, .events, .mgmt] s t) ∧
  (∀ (s : State) (b : BufId) (p : List Byte) (i : SegId) (r : SegRecord), s.handed 0x31 = some (b, p) →
     (byteAt p 0).toNat = segNum i → s.store.seg i = some r →
     (s.fill.engine ≠ .idle → (∀ d, s.fill.engine ≠ .awaitHost i d) →
       ∃ t, exec .fillBegin s = .next t ∧ Answered b .busy [] s t ∧ SameBut [.mgmt] s t) ∧
     (s.fill.engine = .idle → r.state ≠ .absent → r.state ≠ .failed →
       ∃ t, exec .fillBegin s = .next t ∧ Answered b .wrongState [] s t ∧ SameBut [.mgmt] s t) ∧
     ((∃ d, s.fill.engine = .awaitHost i d) ∨
         s.fill.engine = .idle ∧ (r.state = .absent ∨ r.state = .failed) →
       s.store.reachable < (r.length + 255) / 256 →
       ∃ t, exec .fillBegin s = .next t ∧ Answered b .ok [0x01, 0, 0] s t ∧
         SameBut [.mgmt] (failFill i .noSpace s) t))

/-- FILL_DATA: WRONG_STATE, SEQUENCE, LENGTH, or the bytes stored, the CRC and the count advanced, the gap
timer restarted; every other byte of overlay memory reads as before. -/
def Obligations.FillDataEffect : Prop :=
  ∀ (s : State) (b : BufId) (p : List Byte), s.handed 0x32 = some (b, p) →
    ((∀ i o n c d, s.fill.engine ≠ .loadingHost i o n c d) →
      ∃ t, exec .fillData s = .next t ∧ Answered b .wrongState [] s t ∧ SameBut [.mgmt] s t) ∧
    ∀ (i : SegId) (r : SegRecord) (o : Origin) (n : Nat) (c : BitVec 16) (d : Nat),
      s.fill.engine = .loadingHost i o n c d → s.store.seg i = some r →
      ∃ t, exec .fillData s = .next t ∧
        if field p 0 3 ≠ n then Answered b .sequence (leBytes 3 n) s t ∧ SameBut [.mgmt] s t
        else if r.length < n + (p.drop 3).length then
          Answered b .length (leBytes 3 n) s t ∧ SameBut [.mgmt] s t
        else
          Answered b .ok (leBytes 3 (n + (p.drop 3).length)) s t ∧
          t.fill = { s.fill with
            engine := .loadingHost i o (n + (p.drop 3).length) (crc16Over c (p.drop 3)) s.fill.gapTimeout } ∧
          t.store = { s.store with sram := overlayStore r.blocks (p.drop 3) n s.store.sram } ∧
          (MemoryLaw s → MemorySameOutside (KeysOf r.blocks n (p.drop 3).length) s t) ∧
          SameBut [.fill, .store, .mgmt] s t

/-- FILL_END: WRONG_STATE, or the fill fails with LENGTH or CRC, or it is complete; the response carries the
outcome, the bytes received and the CRC as computed. -/
def Obligations.FillEndEffect : Prop :=
  ∀ (s : State) (b : BufId) (p : List Byte), s.handed 0x33 = some (b, p) →
    ((∀ i o n c d, s.fill.engine ≠ .loadingHost i o n c d) →
      ∃ t, exec .fillEnd s = .next t ∧ Answered b .wrongState [] s t ∧ SameBut [.mgmt] s t) ∧
    ∀ (i : SegId) (r : SegRecord) (o : Origin) (n : Nat) (c : BitVec 16) (d : Nat),
      s.fill.engine = .loadingHost i o n c d → s.store.seg i = some r →
      ∃ t, exec .fillEnd s = .next t ∧
        if n < r.length then
          Answered b .ok (0x01 :: (leBytes 3 n ++ leBytes 2 c.toNat)) s t ∧
          SameBut [.mgmt] (failFill i .length s) t
        else if c ≠ r.crc then
          Answered b .ok (0x02 :: (leBytes 3 n ++ leBytes 2 c.toNat)) s t ∧
          SameBut [.mgmt] (failFill i .crc s) t
        else
          Answered b .ok (0x00 :: (leBytes 3 n ++ leBytes 2 c.toNat)) s t ∧
          SameBut [.mgmt] (completeFill i o s) t

/-- FILL_ABORT: BAD_ARGUMENT, WRONG_STATE, a queue-origin fill failed with ABORTED, or a direct fill undone:
to its prior state without held reads, to QUEUED with held reads where the fill queue has room, and to its
prior state with the held reads errored where it has none. The chunk request is withdrawn: not yet granted
it leaves the loader, granted it stays and its data will be dropped, the other requests keep their places, and
the aging count becomes 0 only where client L is left with no offer (R99, R123, R125). -/
def Obligations.FillAbortEffect : Prop :=
  (∀ c : Controller,
    ((∀ q ∈ c.loader, ¬ (q.client = .fill ∧ q.withdrawn = false)) → c.withdrawFill = c) ∧
    ∀ (q : LoaderRequest) (pre post : List LoaderRequest), c.loader = pre ++ q :: post →
      q.client = .fill → q.withdrawn = false →
      (∀ x ∈ pre ++ post, ¬ (x.client = .fill ∧ x.withdrawn = false)) →
      c.withdrawFill = { c with
        loader := if q.granted then pre ++ { q with withdrawn := true } :: post else pre ++ post
        aging := if pre = [] ∧ q.granted = false ∧ (∀ x ∈ post.head?, x.granted = true) then 0
          else c.aging }) ∧
  ∀ (s : State) (b : BufId) (p : List Byte), s.handed 0x34 = some (b, p) →
    ∃ t, exec .fillAbort s = .next t ∧
      (segId? (byteAt p 0).toNat = none → Answered b .badArgument [] s t ∧ SameBut [.mgmt] s t) ∧
      ∀ i, segId? (byteAt p 0).toNat = some i →
        (s.fill.engine.current ≠ some i → Answered b .wrongState [] s t ∧ SameBut [.mgmt] s t) ∧
        ∀ r, s.store.seg i = some r → s.fill.engine.current = some i →
          (s.fill.engine.origin = some .queue →
            Answered b .ok [0x06, byte (s.port.heldFor i).length] s t ∧
            SameBut [.mgmt] (failFill i .aborted { s with ctl := s.ctl.withdrawFill }) t) ∧
          ∀ prior, s.fill.engine.origin = some (.direct prior) →
            SameBut [.store, .fill, .ctl, .mgmt, .port, .outputs, .events] s t ∧
            t.ctl = s.ctl.withdrawFill ∧ OtherSegsSame i s t ∧ t.store.free = s.store.free ++ r.blocks ∧
            t.store.residence = s.store.residence ∧ t.store.sram = s.store.sram ∧
            if r.held = 0 then
              Answered b .ok [prior.state.code, 0] s t ∧ SameBut [.store, .fill, .ctl, .mgmt] s t ∧
              t.store.seg i = some { r with state := prior.state, blocks := [], origin := none } ∧
              t.fill = { s.fill with engine := .idle, lastEnd := some (i, .undone) }
            else if s.fill.queue.length < 8 then
              Answered b .ok [0x02, 0] s t ∧ SameBut [.store, .fill, .ctl, .mgmt] s t ∧
              t.store.seg i = some { r with state := .queued, blocks := [], origin := none } ∧
              t.fill = { s.fill with
                  queue := s.fill.queue ++ [i]
                  engine := .idle
                  lastEnd := some (i, .undone) }
            else
              Answered b .ok [prior.state.code, byte (s.port.heldFor i).length] s t ∧
              t.store.seg i =
                some { r with state := prior.state, blocks := [], origin := none, held := 0 } ∧
              t.fill = { s.fill with engine := .idle, lastEnd := some (i, .failed .aborted) } ∧
              t.outputs = s.outputs ++ (s.port.heldFor i).map (fun h => .errorTag h.tag) ∧
              t.port.held = s.port.held.filter (fun h => decide (h.seg ≠ i)) ∧
              t.port.tags = s.port.tags.filter (fun g => decide (g ∉ (s.port.heldFor i).map (·.tag))) ∧
              t.port.readQueue = s.port.readQueue ∧ t.port.arrival = s.port.arrival ∧
              t.port.looked = s.port.looked ∧
              t.events = s.events.post (.fillFailed i .aborted (s.port.heldFor i).length)

/-! ### The serial memory controller -/

/-- ARBITER_CHOICE on a READY and idle link grants by the five ordered tests W (tests 1 and 4), L (tests 2 and
5) or R (test 3) with the aging count; where no test applies, or the link is not READY and idle, nothing
happens, which is the model's choice (log 2). R offers the read-queue head in LINK_WAIT, W a PENDING
write-queue head, L a head request not yet granted (R122); R's offer is hazard-blocked while any write-queue
entry, PENDING or IN_FLIGHT, overlaps its byte range (R114), and is then never granted. -/
def Obligations.ArbiterGrants : Prop :=
  (∀ s : State,
    (s.hazardBlocked = true ↔ ∃ q rest w, s.port.readQueue = q :: rest ∧ q.active = false ∧
      w ∈ s.write.queue ∧ q.addr < w.addr + w.data.length ∧ w.addr < q.addr + q.len) ∧
    (s.offersR = true ↔ ∃ q rest, s.port.readQueue = q :: rest ∧ q.active = false) ∧
    (s.offersW = true ↔ ∃ w rest, s.write.queue = w :: rest ∧ w.inFlight = false) ∧
    (s.ctl.offersL = true ↔ ∃ q rest, s.ctl.loader = q :: rest ∧ q.granted = false) ∧
    (s.hazardBlocked = true → ∃ t, exec .arbiterChoice s = .next t ∧ t.port = s.port)) ∧
  ∀ (s : State) (t1 t2 t3 : Prop),
    (t1 ↔ s.offersW = true ∧
      (6 ≤ s.write.queue.length ∨ (s.offersR = true ∧ s.hazardBlocked = true))) →
    (t2 ↔ s.ctl.offersL = true ∧ 8 ≤ s.ctl.aging) →
    (t3 ↔ s.offersR = true ∧ s.hazardBlocked = false) →
    ((s.ctl.link ≠ .ready ∨ s.ctl.holder ≠ .none) → exec .arbiterChoice s = .next s) ∧
    (s.ctl.link = .ready → s.ctl.holder = .none →
      (∀ w rest, s.write.queue = w :: rest → w.inFlight = false → (t1 ∨ (¬ t2 ∧ ¬ t3)) →
        exec .arbiterChoice s = .next { s with
          outputs := s.outputs ++ [.begins ⟨.writeEnable, s.ctl.divider⟩]
          write := { s.write with queue := { w with inFlight := true } :: rest }
          ctl := { s.ctl with
            holder := .w
            tx := some ⟨.writeEnable, s.ctl.divider⟩
            aging := if s.ctl.offersL then min 8 (s.ctl.aging + 1) else s.ctl.aging } }) ∧
      (∀ q rest, s.ctl.loader = q :: rest → q.granted = false → ¬ t1 →
        (t2 ∨ (¬ t3 ∧ s.offersW = false)) →
        exec .arbiterChoice s = .next { s with
          outputs := s.outputs ++ [.begins ⟨.read q.addr q.len, s.ctl.divider⟩]
          ctl := { s.ctl with
            holder := .l
            tx := some ⟨.read q.addr q.len, s.ctl.divider⟩
            aging := 0
            loader := { q with granted := true } :: rest } }) ∧
      (∀ q rest, s.port.readQueue = q :: rest → t3 → ¬ t1 → ¬ t2 →
        exec .arbiterChoice s = .next { s with
          outputs := s.outputs ++ [.begins ⟨.read q.addr q.len, s.ctl.divider⟩]
          port := { s.port with readQueue := { q with active := true } :: rest }
          ctl := { s.ctl with
            holder := .r
            tx := some ⟨.read q.addr q.len, s.ctl.divider⟩
            aging := if s.ctl.offersL then min 8 (s.ctl.aging + 1) else s.ctl.aging } }) ∧
      (¬ t3 → s.offersW = false → s.ctl.offersL = false → exec .arbiterChoice s = .next s))

/-- The end of a READ with holder R removes the read-queue head, answers it DATA(tag) with the bytes
returned and frees its tag and the link. With holder L the granted head request leaves the loader, the other
requests keep their places, and the bytes are dropped where it was withdrawn, or handed to the catalog loader
or to the sequencer in stage RECORD, as many of the events they lead to following at once as the operand says (log
20). A READ is carried out in full: that another number of bytes than it asked
for is no end of it is the model's choice (log 2), and so is that boot-record bytes which show another end of the
record than the READ was cut at are none (log 7). -/
def Obligations.ReadCompletes : Prop :=
  (∀ (s : State) (data ahead : List Byte) (taken : Nat) (q : ReadEntry) (rest : List ReadEntry) (a d : Nat),
    s.ctl.tx = some ⟨.read a data.length, d⟩ → s.ctl.holder = .r → s.port.readQueue = q :: rest →
    exec (.readTransactionEnd (.ends data ahead taken)) s = .next { s with
      outputs := s.outputs ++ [.data q.tag data]
      port := { s.port with
        readQueue := rest
        tags := s.port.tags.filter fun t => decide (t ≠ q.tag) }
      ctl := { s.ctl with tx := none, holder := .none } }) ∧
  (∀ (s : State) (data ahead : List Byte) (taken : Nat) (q : LoaderRequest) (rest : List LoaderRequest)
      (a d : Nat) (u : State),
    s.ctl.tx = some ⟨.read a data.length, d⟩ → s.ctl.holder = .l → s.ctl.loader = q :: rest →
    u = { s with ctl := { s.ctl with tx := none, holder := .none, loader := rest } } →
    (q.client ≠ .bootRecord → q.withdrawn = true →
      exec (.readTransactionEnd (.ends data ahead taken)) s = .next u) ∧
    (q.client = .catalog → q.withdrawn = false →
      exec (.readTransactionEnd (.ends data ahead taken)) s = .next (goOn taken (catalogArrived data u))) ∧
    ∀ r, s.startup.bootRead = some r → q.client = .bootRecord →
      (data.length = s.bootLen r data → q.withdrawn = false →
        exec (.readTransactionEnd (.ends data ahead taken)) s = .next (goOn taken (bootArrived data ahead u))) ∧
      (data.length ≠ s.bootLen r data →
        exec (.readTransactionEnd (.ends data ahead taken)) s = .next s)) ∧
  ∀ (s : State) (data ahead : List Byte) (taken a n d : Nat), s.ctl.tx = some ⟨.read a n, d⟩ →
    data.length ≠ n → exec (.readTransactionEnd (.ends data ahead taken)) s = .next s

/-- The end of a catalog chunk's READ, with any other requests behind it in the loader: the bytes enter the
segment's blocks and the CRC and the count advance; short of the declared length the next chunk is requested
in the same event, behind those requests, and at it the fill is complete or fails with CRC, which in stage
PRELOAD the sequencer counts in the same event, as many of its next events following at once as the operand says
(log 20). The bytes of a withdrawn request are dropped. -/
def Obligations.ChunkArrives : Prop :=
  ∀ (s : State) (data ahead : List Byte) (taken : Nat) (q : LoaderRequest) (rest : List LoaderRequest)
      (d : Nat),
    s.ctl.tx = some ⟨.read q.addr data.length, d⟩ → s.ctl.holder = .l → s.ctl.loader = q :: rest →
    q.client = .fill →
    (q.withdrawn = true → exec (.readTransactionEnd (.ends data ahead taken)) s = .next { s with
      ctl := { s.ctl with tx := none, holder := .none, loader := rest } }) ∧
    (q.withdrawn = false →
      ∀ (i : SegId) (r : SegRecord) (image : Nat) (o : Origin) (n : Nat) (c : BitVec 16) (u : State),
      s.fill.engine = .loadingCatalog i o n c → s.store.seg i = some r → r.source = .catalog image →
      image + r.length ≤ s.memSize → s.ctl.link = .ready →
      u = { s with
        ctl := { s.ctl with tx := none, holder := .none, loader := rest }
        store := { s.store with sram := overlayStore r.blocks data n s.store.sram } } →
      (MemoryLaw s → MemorySameOutside (KeysOf r.blocks n data.length) s u) ∧
      (n + data.length < r.length →
        exec (.readTransactionEnd (.ends data ahead taken)) s = .next { u with
          fill := { s.fill with engine := .loadingCatalog i o (n + data.length) (crc16Over c data) }
          ctl := { u.ctl with loader := rest ++ [⟨.fill, image + (n + data.length),
            min (32 - (image + (n + data.length)) % 32) (r.length - (n + data.length)), false, false⟩] } }) ∧
      (n + data.length = r.length → crc16Over c data = r.crc →
        exec (.readTransactionEnd (.ends data ahead taken)) s = .next
          (if s.startup.stage = .preload then preloadEnded false taken (completeFill i o u)
          else completeFill i o u)) ∧
      (n + data.length = r.length → crc16Over c data ≠ r.crc →
        exec (.readTransactionEnd (.ends data ahead taken)) s = .next
          (if s.startup.stage = .preload then preloadEnded true taken (failFill i .crc u)
          else failFill i .crc u)))

/-- The write sequence: WRITE_ENABLE_END issues WRITE, WRITE_TRANSACTION_END enters BUSY_WAIT with the timer,
POLL_START issues READ_STATUS, BUSY_TIMER_EXPIRY sets the flag and nothing else; a poll that answers not busy
removes the write-queue head and makes the link READY and idle, one that answers busy before the expiry only
ends. That "not busy" leaves the expired flag as it was is the model's choice (log 19). With each transaction
the part sends its instruction and, most significant byte first, its address, with WRITE the data after it
(R118). -/
def Obligations.WriteSequence : Prop :=
  (∀ (s : State) (t : Transaction), s.ctl.tx = some t → s.linkSent =
    match t.op with
    | .read a _ => [.instruction .read, .byte (byte (a / 65536)), .byte (byte (a / 256)), .byte (byte a)]
    | .writeEnable => [.instruction .writeEnable]
    | .write a ds => [.instruction .write, .byte (byte (a / 65536)), .byte (byte (a / 256)),
        .byte (byte a)] ++ ds.map .byte
    | .readStatus => [.instruction .readStatus]) ∧
  (∀ (s : State) (w : WriteEntry) (rest : List WriteEntry) (d : Nat),
    s.ctl.tx = some ⟨.writeEnable, d⟩ → s.write.queue = w :: rest →
    exec .writeEnableEnd s = .next { s with
      outputs := s.outputs ++ [.begins ⟨.write w.addr w.data, s.ctl.divider⟩]
      ctl := { s.ctl with tx := some ⟨.write w.addr w.data, s.ctl.divider⟩ } }) ∧
  (∀ (s : State) (a : Nat) (ds : List Byte) (d : Nat), s.ctl.tx = some ⟨.write a ds, d⟩ →
    exec .writeTransactionEnd s = .next { s with ctl := { s.ctl with
      tx := none, link := .busyWait, busyTimer := some s.ctl.busyTimeout, expired := false } }) ∧
  (∀ s : State, s.ctl.link = .busyWait → s.ctl.tx = none → s.pins.inReset = false →
    exec .pollStart s = .next { s with
      outputs := s.outputs ++ [.begins ⟨.readStatus, s.ctl.divider⟩]
      ctl := { s.ctl with tx := some ⟨.readStatus, s.ctl.divider⟩ } }) ∧
  (∀ (s : State) (d : Nat), s.ctl.busyTimer = some d →
    exec .busyTimerExpiry s = .next { s with ctl := { s.ctl with expired := true } }) ∧
  ∀ (s : State) (d : Nat) (status : Byte) (ahead : List Byte) (taken : Bool), s.ctl.link = .busyWait →
    s.ctl.tx = some ⟨.readStatus, d⟩ →
    (status.getLsbD 0 = false → s.ctl.holder = .w → (s.startup.stage = .poll → taken = false) →
      exec (.pollEnd (.ends status ahead taken)) s = .next { s with
        ctl := { s.ctl with tx := none, link := .ready, holder := .none, busyTimer := none }
        write := { s.write with queue := s.write.queue.tail } }) ∧
    (status.getLsbD 0 = true → s.ctl.expired = false →
      exec (.pollEnd (.ends status ahead taken)) s = .next { s with ctl := { s.ctl with tx := none } })

/-- A busy timeout, and a reset-poll timeout, after start-up has ended or before the sequencer takes it (R145, log
20): STALLED, the uncertain write removed (none at a reset poll), the read queue errored in order, a catalog fill
failed with its event ahead of DN_STALLED, the loader emptied, a CATALOG_LOAD that is reading ended LINK_STALLED, one
that is applying its descriptors left as it is (R140). Each tag answered becomes free. -/
def Obligations.StallsLink : Prop :=
  ∀ (s : State) (d : Nat) (status : Byte) (ahead : List Byte) (taken : Bool) (uncertain : Option (Nat × Nat))
      (left : List WriteEntry),
    s.ctl.link = .busyWait → s.ctl.tx = some ⟨.readStatus, d⟩ → status.getLsbD 0 = true →
    s.ctl.expired = true → s.startup.stage ≠ .catalog → (s.startup.stage = .poll → taken = false) →
    ((∃ w, s.ctl.holder = .w ∧ s.write.queue = w :: left ∧ w.inFlight = true ∧
        uncertain = some (w.addr, w.data.length)) ∨
      (s.ctl.holder = .poll ∧ left = s.write.queue ∧ uncertain = none)) →
    ∃ t, exec (.pollEnd (.ends status ahead taken)) s = .next t ∧
      t.write = { s.write with queue := left } ∧
      t.ctl = { s.ctl with
        link := .stalled
        holder := .none
        tx := none
        busyTimer := none
        expired := false
        loader := []
        aging := 0 } ∧
      t.port.readQueue = [] ∧ t.port.arrival = s.port.arrival ∧ t.port.looked = s.port.looked ∧
      SameBut [.write, .ctl, .port, .outputs, .store, .fill, .events, .startup, .mgmt] s t ∧
      ((s.startup.catalog = none ∨ ∃ a l m k, s.startup.catalog = some ⟨a, .applying l m k⟩) →
        t.startup = s.startup ∧ t.mgmt = s.mgmt) ∧
      (∀ b f q, ((∃ a bs, s.startup.catalog = some ⟨a, .header bs⟩) ∨
          ∃ a n h bs c, s.startup.catalog = some ⟨a, .descriptors n h bs c⟩) →
        s.mgmt.executor = .busy b .catalogLoad →
        s.mgmt.buf b = .executing f q →
        t.startup = { s.startup with catalog := none } ∧ Answered b .linkStalled [] s t) ∧
      ((∀ i o n c, s.fill.engine ≠ .loadingCatalog i o n c) →
        t.store = s.store ∧ t.fill = s.fill ∧ t.port.held = s.port.held ∧
        t.outputs = s.outputs ++ s.port.readQueue.map (fun q => .errorTag q.tag) ∧
        t.port.tags = s.port.tags.filter (fun g => decide (g ∉ s.port.readQueue.map (·.tag))) ∧
        t.events = s.events.post (.dnStalled uncertain s.port.readQueue.length false)) ∧
      ∀ i o n c, s.fill.engine = .loadingCatalog i o n c →
        t.store = (failFill i .dnStalled s).store ∧
        t.fill = { s.fill with engine := .idle, lastEnd := some (i, .failed .dnStalled) } ∧
        t.port.held = s.port.held.filter (fun h => decide (h.seg ≠ i)) ∧
        t.outputs = s.outputs ++ s.port.readQueue.map (fun q => .errorTag q.tag) ++
          (s.port.heldFor i).map (fun h => .errorTag h.tag) ∧
        t.port.tags = s.port.tags.filter (fun g => decide (g ∉ s.port.readQueue.map (·.tag) ∧
          g ∉ (s.port.heldFor i).map (·.tag))) ∧
        t.events = (s.events.post (.fillFailed i .dnStalled (s.port.heldFor i).length)).post
          (.dnStalled uncertain s.port.readQueue.length true)

/-- A reset poll that answers not busy makes the link READY and idle and stops the timer, in every stage, after
start-up has ended among them, as with BOOT_EN 0. In stage POLL the sequencer takes the poll's result as an event of
its own: of a READY link the stage RECORD and the first boot-record read in the loader, of a STALLED one the end of
start-up LINK_STALLED, its STARTUP_DONE behind the DN_STALLED of the timeout, which other events may come between.
That this event may come with the poll's end or later is the model's reading (log 20); that without a result no event
takes one is its choice (log 2). R146 cuts that read at the window's end or the record's, which its counts show: that
the operand brings the bytes standing there in the serial memory is the model's choice (log 7). So is that "not busy"
leaves the expired flag as it was (log 19). -/
def Obligations.ResetPollEnds : Prop :=
  (∀ (s : State) (d : Nat) (status : Byte) (ahead : List Byte) (taken : Bool), s.ctl.link = .busyWait →
    s.ctl.holder = .poll → s.ctl.tx = some ⟨.readStatus, d⟩ → (s.startup.stage = .poll → taken = false) →
    status.getLsbD 0 = false →
    exec (.pollEnd (.ends status ahead taken)) s = .next { s with
      ctl := { s.ctl with tx := none, link := .ready, holder := .none, busyTimer := none } }) ∧
  (∀ (s t : State) (status : Byte) (ahead : List Byte), exec (.pollEnd (.ends status ahead false)) s = .next t →
    exec (.pollEnd (.ends status ahead true)) s = exec (.pollEnd (.taken ahead)) t) ∧
  (∀ (s : State) (ahead : List Byte) (m k n : Nat), s.startup.stage = .poll →
    m = field ahead 8 1 → k = field ahead (9 + 12 * m) 1 →
    n = (if 8 < ahead.length ∧ 9 + 12 * m < ahead.length then min 32 (12 + 12 * m + k) else 32) →
    (s.ctl.link = .ready → exec (.pollEnd (.taken ahead)) s = .next { s with
      ctl := { s.ctl with loader := s.ctl.loader ++ [⟨.bootRecord, s.memSize - 4096, n, false, false⟩] }
      startup := { s.startup with stage := .record, bootRead := some ⟨[], 0xFFFF⟩ } }) ∧
    (s.ctl.link = .stalled → s.startup.outcome = .ok → exec (.pollEnd (.taken ahead)) s = .next { s with
      startup := { s.startup with
        stage := .run
        outcome := .linkStalled
        record := none
        bootRead := none
        written := 0
        committed := false }
      events := s.events.post
        (.startupDone .linkStalled s.map.generation s.startup.failures s.write.resetDiscard) })) ∧
  (∀ (s : State) (ahead : List Byte), s.startup.stage ≠ .poll ∨ s.ctl.link = .busyWait →
    exec (.pollEnd (.taken ahead)) s = .next s) ∧
  ∀ (s : State) (d : Nat) (status : Byte) (ahead : List Byte), s.ctl.link = .busyWait →
    s.ctl.holder = .poll → s.ctl.tx = some ⟨.readStatus, d⟩ → s.startup.stage = .poll →
    status.getLsbD 0 = true → s.ctl.expired = true → s.port.readQueue = [] → s.fill.engine = .idle →
    s.startup.catalog = none → s.startup.outcome = .ok →
    ∃ t, exec (.pollEnd (.ends status ahead true)) s = .next t ∧
      t.ctl = { s.ctl with
        link := .stalled
        holder := .none
        tx := none
        busyTimer := none
        expired := false
        loader := []
        aging := 0 } ∧
      t.startup = { s.startup with
        stage := .run
        outcome := .linkStalled
        record := none
        bootRead := none
        written := 0
        committed := false } ∧
      t.events = (s.events.post (.dnStalled none 0 false)).post
        (.startupDone .linkStalled s.map.generation s.startup.failures s.write.resetDiscard) ∧
      t.port = s.port ∧ SameBut [.ctl, .startup, .events] s t

/-- LINK_RECOVER is refused WRONG_STATE unless STALLED, and otherwise issues one READ_STATUS with holder
POLL; the end of that poll returns the link to READY with OK, or leaves it STALLED with STILL_BUSY. -/
def Obligations.LinkRecovers : Prop :=
  (∀ (s : State) (b : BufId) (p : List Byte), s.handed 0x41 = some (b, p) → s.ctl.link = .stalled →
    exec .linkRecover s = .next { s with
      outputs := s.outputs ++ [.begins ⟨.readStatus, s.ctl.divider⟩]
      ctl := { s.ctl with holder := .poll, tx := some ⟨.readStatus, s.ctl.divider⟩ }
      mgmt := { s.mgmt with executor := .busy b .linkRecover } }) ∧
  (∀ (s : State) (b : BufId) (p : List Byte), s.handed 0x41 = some (b, p) → s.ctl.link ≠ .stalled →
    ∃ t, exec .linkRecover s = .next t ∧ Answered b .wrongState [] s t ∧ SameBut [.mgmt] s t) ∧
  ∀ (s : State) (b : BufId) (f : Frame) (q : BitVec 8) (d : Nat) (status : Byte),
    s.ctl.link = .stalled → s.ctl.holder = .poll → s.ctl.tx = some ⟨.readStatus, d⟩ →
    s.mgmt.executor = .busy b .linkRecover → s.mgmt.buf b = .executing f q →
    ∃ t, exec (.linkRecoverPollEnd status) s = .next t ∧
      t.ctl = { s.ctl with
        tx := none
        holder := .none
        link := if status.getLsbD 0 then .stalled else .ready } ∧
      Answered b (if status.getLsbD 0 then .stillBusy else .ok) [] s t ∧ SameBut [.ctl, .mgmt] s t

/-! ### Catalog, boot record and start-up -/

/-- CATALOG_LOAD: refused BUSY while a catalog fill runs; otherwise accepted, holding the executor, with the
first header request in the loader, or ended at once where the loader refuses that request. That a request
beyond the memory on a STALLED link is refused for its range is the model's choice (log 16). -/
def Obligations.CatalogLoadBegins : Prop :=
  ∀ (s : State) (b : BufId) (p : List Byte) (a n : Nat), s.handed 0x40 = some (b, p) →
    a = field p 0 3 → n = min (32 - a % 32) 7 → s.startup.stage = .run →
    ((∃ i o m c, s.fill.engine = .loadingCatalog i o m c) →
      ∃ t, exec .catalogLoad s = .next t ∧ Answered b .busy [] s t ∧ SameBut [.mgmt] s t) ∧
    ((∀ i o m c, s.fill.engine ≠ .loadingCatalog i o m c) →
      (a + n ≤ s.memSize → s.ctl.link ≠ .stalled →
        exec .catalogLoad s = .next { s with
          mgmt := { s.mgmt with executor := .busy b .catalogLoad }
          startup := { s.startup with catalog := some ⟨a, .header []⟩ }
          ctl := { s.ctl with loader := s.ctl.loader ++ [⟨.catalog, a, n, false, false⟩] } }) ∧
      (s.memSize < a + n → ∃ t, exec .catalogLoad s = .next t ∧ Answered b .badCatalog [0x01] s t ∧
        t.startup = { s.startup with catalog := none } ∧ SameBut [.mgmt, .startup] s t) ∧
      (a + n ≤ s.memSize → s.ctl.link = .stalled →
        ∃ t, exec .catalogLoad s = .next t ∧ Answered b .linkStalled [] s t ∧
          t.startup = { s.startup with catalog := none } ∧ SameBut [.mgmt, .startup] s t))

/-- A catalog's reading, checks and application. The seven header bytes gather, then count × 10 descriptor bytes
with the CRC advancing over them, each request running to the window's end or to the end of the part being read;
one beyond the memory is refused RANGE and one on a STALLED link is stalled, which ends the loading (range
first: log 16). The header's magic and count are checked, and one that passes goes on to the descriptors.
Unequal CRCs are BAD_CRC; equal ones apply the descriptors in order, other events coming between any two of
them, and the last ends the application with the two counts, whose sum is the header's count. A descriptor, laid
out in ten bytes, of whose flags only bit 0 counts, is skipped with BAD_DESCRIPTOR or EXISTS or declared ABSENT.
Faults have the codes of 10.7. The response ends CATALOG_LOAD. That the events come as the operand of the command
says is the model's reading (log 20). -/
def Obligations.CatalogApplied : Prop :=
  (∀ (data : List Byte) (s : State),
    (∀ a bs, s.startup.catalog = some ⟨a, .header bs⟩ → catalogArrived data s =
      if (bs ++ data).length < 7 then readCatalog ⟨a + data.length, .header (bs ++ data)⟩ s
      else headerArrived (a + data.length) (bs ++ data) s) ∧
    ∀ a count h bs c, s.startup.catalog = some ⟨a, .descriptors count h bs c⟩ →
      catalogArrived data s =
      if (bs ++ data).length < count * 10 then
        readCatalog ⟨a + data.length, .descriptors count h (bs ++ data) (crc16Over c data)⟩ s
      else descriptorsArrived (a + data.length) count h (bs ++ data) (crc16Over c data) s) ∧
  (∀ (s u : State) (c : CatalogRead) (n : Nat), n = min (32 - c.next % 32) (match c.phase with
      | .header bs => 7 - bs.length
      | .descriptors count _ bs _ => count * 10 - bs.length
      | .applying _ _ _ => 0) →
    u = { s with startup := { s.startup with catalog := some c } } →
    (c.next + n ≤ s.memSize → s.ctl.link ≠ .stalled → readCatalog c s = { u with
      ctl := { s.ctl with loader := s.ctl.loader ++ [⟨.catalog, c.next, n, false, false⟩] } }) ∧
    (s.memSize < c.next + n → readCatalog c s = catalogEnd (.bad .range) u) ∧
    (c.next + n ≤ s.memSize → s.ctl.link = .stalled → readCatalog c s = catalogEnd .stalled u)) ∧
  ([CatalogFault.range, .badMagic, .badCount, .badCrc].map CatalogFault.code = [0x01, 0x02, 0x03, 0x04]) ∧
  (∀ x0 x1 x2 x3 x4 x5 x6 x7 x8 x9 : Byte, descriptor [x0, x1, x2, x3, x4, x5, x6, x7, x8, x9] = {
    id := x0
    pinned := x1.getLsbD 0
    length := x2.toNat + 256 * x3.toNat + 65536 * x4.toNat
    image := x5.toNat + 256 * x6.toNat + 65536 * x7.toNat
    crc := BitVec.ofNat 16 (x8.toNat + 256 * x9.toNat) }) ∧
  (∀ (next : Nat) (bs : List Byte) (s : State),
    (field bs 0 4 ≠ 0x43C7A15E → headerArrived next bs s = catalogEnd (.bad .badMagic) s) ∧
    (field bs 0 4 = 0x43C7A15E → field bs 4 1 = 0 ∨ 62 < field bs 4 1 →
      headerArrived next bs s = catalogEnd (.bad .badCount) s) ∧
    (field bs 0 4 = 0x43C7A15E → 1 ≤ field bs 4 1 → field bs 4 1 ≤ 62 →
      headerArrived next bs s = readCatalog
        ⟨next, .descriptors (field bs 4 1) (BitVec.ofNat 16 (field bs 5 2)) [] 0xFFFF⟩ s)) ∧
  (∀ (next count : Nat) (h c : BitVec 16) (bs : List Byte) (s : State), c ≠ h →
    descriptorsArrived next count h bs c s = catalogEnd (.bad .badCrc) s) ∧
  (∀ (next : Nat) (ds : List (List Byte)) (c : BitVec 16) (s : State), (∀ d ∈ ds, d.length = 10) →
    descriptorsArrived next ds.length c ds.flatten c s =
      { s with startup := { s.startup with catalog := some ⟨next, .applying ds 0 0⟩ } }) ∧
  (∀ (s : State) (next m k : Nat) (d : List Byte) (ds : List (List Byte)),
    s.startup.catalog = some ⟨next, .applying (d :: ds) m k⟩ →
    ∃ (t : State) (m' k' : Nat), applyDescriptor (s, m, k) d = (t, m', k') ∧ m' + k' = m + k + 1 ∧
      nextEvent s = if ds = [] then catalogEnd (.ok m' k') t
        else { t with startup := { t.startup with catalog := some ⟨next, .applying ds m' k'⟩ } }) ∧
  (∀ (s : State) (next : Nat) (ds : List (List Byte)), s.startup.catalog = some ⟨next, .applying ds 0 0⟩ → ds ≠ [] →
    ∃ (t : State) (m k : Nat), goOn ds.length s = catalogEnd (.ok m k) t ∧ m + k = ds.length ∧
      SameBut [.store, .events, .startup] s t) ∧
  (∀ (s : State) (count : Nat), exec (.readTransactionEnd (.goesOn count)) s = .next (goOn count s) ∧
    goOn 0 s = s ∧ goOn (count + 1) s = goOn count (nextEvent s) ∧
    ((∀ a l m k, s.startup.catalog ≠ some ⟨a, .applying l m k⟩) → nextEvent s = sequencerEvent s)) ∧
  (∀ (s : State) (m k : Nat) (bs : List Byte) (d : Descriptor), d = descriptor bs →
    (segId? d.id.toNat = none ∨ d.length = 0 ∨ 65536 < d.length →
      applyDescriptor (s, m, k) bs =
        ({ s with events := s.events.post (.catalogConflict d.id .badDescriptor) }, m, k + 1)) ∧
    ∀ i, segId? d.id.toNat = some i → 0 < d.length → d.length ≤ 65536 →
      (∀ r, s.store.seg i = some r → applyDescriptor (s, m, k) bs =
        ({ s with events := s.events.post (.catalogConflict d.id .exists_) }, m, k + 1)) ∧
      (s.store.seg i = none → ∃ t, applyDescriptor (s, m, k) bs = (t, m + 1, k) ∧
        t.store.seg i = some {
          state := .absent, source := .catalog d.image, length := d.length, crc := d.crc
          pinned := d.pinned, dirty := false, blocks := [], held := 0, discards := 0, fills := 0
          lastFailure := none, origin := none } ∧
        OtherSegsSame i s t ∧ t.store.free = s.store.free ∧ t.store.sram = s.store.sram ∧
        t.store.residence = s.store.residence ∧ SameBut [.store] s t)) ∧
  ∀ (s : State) (b : BufId) (f : Frame) (q : BitVec 8), s.startup.stage = .run →
    s.mgmt.executor = .busy b .catalogLoad → s.mgmt.buf b = .executing f q →
    (∀ m k, Answered b .ok [byte m, byte k] s (catalogEnd (.ok m k) s) ∧
      SameBut [.mgmt, .startup] s (catalogEnd (.ok m k) s)) ∧
    ∀ e, Answered b .badCatalog [e.code] s (catalogEnd (.bad e) s) ∧
      SameBut [.mgmt, .startup] s (catalogEnd (.bad e) s)

/-- A boot record read from its first byte to its last is accepted with its contents exactly when its CRC
item equals the CRC-16 of every byte before it, the other checks passing; a wrong magic, version or count
rejects it.
Of the bytes of one READ in stage RECORD the sequencer makes: the next request, to the window's end or the
record's; the end of start-up with NO_RECORD; or stage CATALOG with the record kept, and from it the catalog's
first request or, without a catalog, stage MAP, or the stage after it that has something to do. A request runs to the window's end, or to the record's where the
counts among the bytes read and those that follow them in the serial memory show that it comes first: that an
operand brings the latter is the model's choice (log 7). -/
def Obligations.BootRecordChecked : Prop :=
  (∀ (s : State) (r : BootRead) (ahead bs : List Byte) (n m k a : Nat), n = r.bytes.length →
    bs = r.bytes ++ ahead → m = field bs 8 1 → k = field bs (9 + 12 * m) 1 → a = s.memSize - 4096 + n →
    s.bootLen r ahead = if 8 < bs.length ∧ 9 + 12 * m < bs.length then
      min (32 - a % 32) (12 + 12 * m + k - n) else 32 - a % 32) ∧
  (∀ (s : State) (data ahead : List Byte) (r : BootRead), s.startup.bootRead = some r →
    (∀ (r' : BootRead) (a : Nat), bootBytes r data = .reading r' → a = s.memSize - 4096 + r'.bytes.length →
      a + s.bootLen r' ahead ≤ s.memSize → s.ctl.link ≠ .stalled →
      bootArrived data ahead s = { s with
        startup := { s.startup with bootRead := some r' }
        ctl := { s.ctl with
          loader := s.ctl.loader ++ [⟨.bootRecord, a, s.bootLen r' ahead, false, false⟩] } }) ∧
    (bootBytes r data = .bad → s.startup.outcome = .ok → bootArrived data ahead s = { s with
      startup := { s.startup with
        stage := .run
        outcome := .noRecord
        record := none
        bootRead := none
        written := 0
        committed := false }
      events := s.events.post
        (.startupDone .noRecord s.map.generation s.startup.failures s.write.resetDiscard) }) ∧
    ∀ (b : BootRecord) (u : State), bootBytes r data = .good b →
      u = { s with startup := { s.startup with stage := .catalog, record := some b, bootRead := none } } →
      (b.catalog = none → bootArrived data ahead s = u.enterMap) ∧
      ∀ a, b.catalog = some a → bootArrived data ahead s = readCatalog ⟨a, .header []⟩ u) ∧
  ∀ (bs : List Byte) (m k : Nat), bs.length = 12 + 12 * m + k → m = field bs 8 1 →
    k = field bs (9 + 12 * m) 1 →
    (field bs 0 4 = 0x5B2E90C4 → byteAt bs 4 = 1 → m ≤ 32 → k ≤ 16 →
      bootBytes ⟨[], 0xFFFF⟩ bs =
        if field bs (10 + 12 * m + k) 2 = (crc16Over 0xFFFF (bs.take (10 + 12 * m + k))).toNat then
          .good {
            catalog := if field bs 5 3 = 0xFFFFFF then none else some (field bs 5 3)
            entries := (pieces 12 m (bs.drop 9)).map rawEntry
            preloads := (bs.drop (10 + 12 * m)).take k }
        else .bad) ∧
    (field bs 0 4 ≠ 0x5B2E90C4 ∨ byteAt bs 4 ≠ 1 ∨ 32 < m ∨ 16 < k → bootBytes ⟨[], 0xFFFF⟩ bs = .bad)

/-- Stages CATALOG, MAP and PRELOAD, the sequencer's events coming one by one with others between. A catalog's end
leads to stage MAP, its fault setting BAD_CATALOG. An event of stage MAP writes the record's next entry into SHADOW:
one that passes the checks of MAP_WRITE is written, one that fails sets map faulted and BAD_MAP, each outcome only
while it is OK. An event of stage PRELOAD requests the next preload id of an IDLE engine with an empty fill queue: an
id that is none, an UNDECLARED segment, and a segment that is HOST-sourced or neither ABSENT nor FAILED count as
failures, a RESIDENT one is passed over, and of a catalog segment a fill fails at once or is begun with origin
DIRECT; a fill's end counts, and leads to the next id. A stage with nothing left leads to the next, after the last
preload COMMIT. That the events come as the commands' operands say is the model's reading (log 20), and that a stage in
which the sequencer waits has none is its choice (log 2). -/
def Obligations.StartupMapAndPreloads : Prop :=
  (∀ (s : State), s.startup.stage = .catalog →
    (∀ m k, catalogEnd (.ok m k) s = ({ s with startup := { s.startup with catalog := none } } : State).enterMap) ∧
    ∀ e, catalogEnd (.bad e) s = ({ s with startup := { s.startup with
      catalog := none
      outcome := if s.startup.outcome = .ok then .badCatalog else s.startup.outcome } } : State).enterMap) ∧
  (∀ (s : State) (r : BootRecord), s.startup.record = some r →
    s.enterPreload = { s with startup := { s.startup with
      stage := if r.preloads.drop s.startup.position = [] then .commit else .preload } } ∧
    (r.entries.drop s.startup.written = [] → s.enterMap = s.enterPreload) ∧
    (r.entries.drop s.startup.written ≠ [] →
      s.enterMap = { s with startup := { s.startup with stage := .map } })) ∧
  (∀ (s : State) (r : BootRecord) (e : RawEntry) (rest : List RawEntry) (u : State), s.startup.stage = .map →
    s.startup.record = some r → r.entries.drop s.startup.written = e :: rest → u = writeBootEntry s e →
    sequencerEvent s =
      ({ u with startup := { u.startup with written := s.startup.written + 1 } } : State).enterMap) ∧
  (∀ (s : State) (e : RawEntry),
    (∀ (i : MapIndex) (seg : SegId) (w : WritePolicy) (a : AbsencePolicy), e.index = i.val →
      e.seg = segNum seg → e.wpol = w.code.toNat → e.apol = a.code.toNat →
      MapEntry.Legal ⟨e.base, e.size, seg, e.offset, w, a⟩ →
      SameBut [.map] s (writeBootEntry s e) ∧ (writeBootEntry s e).map.active = s.map.active ∧
      (writeBootEntry s e).map.generation = s.map.generation ∧
      ∀ j : MapIndex, (writeBootEntry s e).map.shadow[j] =
        if j = i then some ⟨e.base, e.size, seg, e.offset, w, a⟩ else s.map.shadow[j]) ∧
    ((∀ (i : MapIndex) (seg : SegId) (w : WritePolicy) (a : AbsencePolicy), e.index = i.val →
        e.seg = segNum seg → e.wpol = w.code.toNat → e.apol = a.code.toNat →
        ¬ MapEntry.Legal ⟨e.base, e.size, seg, e.offset, w, a⟩) →
      writeBootEntry s e = { s with startup := { s.startup with
        mapFaulted := true
        outcome := if s.startup.outcome = .ok then .badMap else s.startup.outcome } })) ∧
  (∀ (s : State) (r : BootRecord) (id : Byte) (rest : List Byte) (next : Bool → State → State),
    s.startup.stage = .preload → s.startup.record = some r →
    r.preloads.drop s.startup.position = id :: rest →
    next = (fun failed t => ({ t with startup := { t.startup with
      position := t.startup.position + 1
      failures := t.startup.failures + if failed then 1 else 0 } } : State).enterPreload) →
    (s.fill.engine ≠ .idle ∨ s.fill.queue ≠ [] → sequencerEvent s = s) ∧
    (s.fill.engine = .idle → s.fill.queue = [] →
      (segId? id.toNat = none → sequencerEvent s = next true s) ∧
      ∀ i, segId? id.toNat = some i →
        (s.store.seg i = none → sequencerEvent s = next true s) ∧
        ∀ r, s.store.seg i = some r →
          (r.state = .resident → sequencerEvent s = next false s) ∧
          (r.state ≠ .resident → (r.source = .host ∨ (r.state ≠ .absent ∧ r.state ≠ .failed)) →
            sequencerEvent s = next true s) ∧
          ∀ (image : Nat) (prior : Prior), r.source = .catalog image →
            ((r.state = .absent ∧ prior = .absent) ∨ (r.state = .failed ∧ prior = .failed)) →
            if s.ctl.link = .stalled then sequencerEvent s = next true (failFill i .dnStalled s)
            else if s.memSize < image + r.length then sequencerEvent s = next true (failFill i .length s)
            else
              match s.store.allocate ((r.length + 255) / 256) i with
              | none => sequencerEvent s = next true (failFill i .noSpace s)
              | some (bs, st, evs) => ∃ t, sequencerEvent s = t ∧
                t.fill = { s.fill with engine := .loadingCatalog i (.direct prior) 0 0xFFFF } ∧
                t.store.seg i =
                  some { r with state := .filling, blocks := bs, origin := some (.direct prior) } ∧
                (∀ j, j ≠ i → t.store.seg j = st.seg j) ∧ t.store.free = st.free ∧
                t.store.residence = st.residence ∧ t.store.sram = s.store.sram ∧
                t.events = s.events.postAll evs ∧
                t.ctl = { s.ctl with loader := s.ctl.loader ++
                  [⟨.fill, image, min (32 - image % 32) r.length, false, false⟩] } ∧
                SameBut [.fill, .store, .events, .ctl] s t)) ∧
  (∀ (s : State) (failed : Bool) (taken : Nat), s.startup.stage = .preload →
    preloadEnded failed taken s = goOn taken ({ s with startup := { s.startup with
      position := s.startup.position + 1
      failures := s.startup.failures + if failed then 1 else 0 } } : State).enterPreload) ∧
  ∀ s : State, s.startup.stage ∈ [.poll, .record, .catalog, .run] → sequencerEvent s = s

/-- Stage COMMIT and the end of start-up, two events of the sequencer: no commit where map faulted is set, otherwise
SHADOW into ACTIVE or BAD_MAP, no event posted; then STARTUP_DONE posted, the record discarded, stage RUN. That other
events may come between is the model's reading (log 20). -/
def Obligations.StartupCommits : Prop :=
  ∀ s : State, s.startup.stage = .commit →
    (s.startup.committed = false → ∃ o,
      (sequencerEvent s).startup = { s.startup with committed := true, outcome := o } ∧
      SameBut [.map, .startup] s (sequencerEvent s) ∧
      (s.startup.mapFaulted = true → (sequencerEvent s).map = s.map ∧ o = s.startup.outcome) ∧
      (s.startup.mapFaulted = false → s.map.shadow.Consistent s.store →
        (sequencerEvent s).map = { s.map with
          active := s.map.shadow
          generation := if s.map.generation.toNat = 65535 then 1 else s.map.generation + 1 } ∧
        o = s.startup.outcome) ∧
      (s.startup.mapFaulted = false → ¬ s.map.shadow.Consistent s.store →
        (sequencerEvent s).map = s.map ∧
        o = if s.startup.outcome = .ok then .badMap else s.startup.outcome)) ∧
    (s.startup.committed = true → sequencerEvent s = { s with
      startup := { s.startup with
        stage := .run
        record := none
        bootRead := none
        written := 0
        committed := false }
      events := s.events.post (.startupDone s.startup.outcome s.map.generation s.startup.failures
        s.write.resetDiscard) })

/-! ### The management link -/

/-- A write transfer to the part takes the EMPTY buffer of R159 and the mark then names the other; with neither
EMPTY it is an overrun that changes no buffer and of which no data byte is acknowledged; another address is not
acknowledged, and the transfer that follows it is ignored. A transfer that was on the bus ends, its unfinished
frame discarded (R156). -/
def Obligations.WriteTransferChooses : Prop :=
  ∀ (s : State) (m : Mgmt), m = { s.mgmt with
      bufA := s.mgmt.bufA.discard
      bufB := s.mgmt.bufB.discard
      reading := none
      refusing := false } →
    (s.pins.inReset = false →
      (∀ b : BufId, m.buf b = .empty → (m.buf b.other = .empty → b = m.mark) →
        exec (.writeTransferStart ⟨some s.targetAddress, []⟩) s = .next { s with
          outputs := s.outputs ++ [.addressAck true]
          mgmt := { m.setBuf b (.receiving []) with mark := b.other } }) ∧
      (m.bufA ≠ .empty → m.bufB ≠ .empty → ∀ data : List Byte,
        exec (.writeTransferStart ⟨some s.targetAddress, data⟩) s = .next { s with
          outputs := s.outputs ++ .addressAck true :: data.map fun _ => .dataAck false
          mgmt := { m with refusing := true } })) ∧
    ∀ (a : BitVec 7) (data : List Byte), (s.pins.inReset = true ∨ a ≠ s.targetAddress) →
      exec (.writeTransferStart ⟨some a, data⟩) s = .next { s with
        outputs := s.outputs ++ [.addressAck false]
        mgmt := m }

/-- Data bytes act one after another: those of one event do what those before and those after do in two, in every
transfer. A data byte of the frame is received into the RECEIVING buffer and acknowledged: the command code, a payload
length of at most 72, the payload. FRAME_COMPLETE: the check byte is acknowledged, the frame takes the sequence
number, the counter rises, the buffer becomes PENDING with the result of its check. FRAME_DISCARD: the buffer
returns to EMPTY and the counter stays. A bad length byte is not acknowledged, and no byte after it, after the
check byte, or of any other transfer the target takes no byte of is. A transfer that is not the part's changes
nothing (R154). That the bytes are operands of WRITE_TRANSFER_START, but a check byte or a bad length byte is
received by its own command and in the former changes nothing, is the model's choice (logs 11 and 2). -/
def Obligations.FrameReceived : Prop :=
  (∀ (s t : State) (a : Option (BitVec 7)) (xs ys : List Byte),
    exec (.writeTransferStart ⟨a, xs⟩) s = .next t →
    exec (.writeTransferStart ⟨a, xs ++ ys⟩) s = exec (.writeTransferStart ⟨none, ys⟩) t) ∧
  (∀ (s : State) (b : BufId) (bytes : List Byte), s.mgmt.buf b = .receiving bytes →
    (∀ x, s.mgmt.buf b.other ≠ .receiving x) →
    (∀ x : Byte, (bytes = [] ∨ (bytes.length = 1 ∧ x.toNat ≤ 72) ∨
        ∃ code len payload, bytes = code :: len :: payload ∧ payload.length < len.toNat) →
      exec (.writeTransferStart ⟨none, [x]⟩) s = .next { s with
        outputs := s.outputs ++ [.dataAck true]
        mgmt := s.mgmt.setBuf b (.receiving (bytes ++ [x])) }) ∧
    (∀ x : Byte, ((bytes.length = 1 ∧ 72 < x.toNat) ∨
        ∃ code len payload, bytes = code :: len :: payload ∧ len.toNat ≤ payload.length) →
      exec (.writeTransferStart ⟨none, [x]⟩) s = .next s) ∧
    (∀ (code len check : Byte) (payload : List Byte), bytes = code :: len :: payload →
      payload.length = len.toNat →
      exec (.frameComplete code payload check) s = .next { s with
        outputs := s.outputs ++ [.dataAck true]
        mgmt := { s.mgmt.setBuf b (.pending ⟨code, payload⟩ s.mgmt.seq (crc8 bytes == check)) with
          seq := s.mgmt.seq + 1
          refusing := true } }) ∧
    exec (.frameDiscard .earlyEnd) s = .next { s with mgmt := s.mgmt.setBuf b .empty } ∧
    ∀ len : Byte, bytes.length = 1 → 72 < len.toNat →
      exec (.frameDiscard (.badLength len)) s = .next { s with
        outputs := s.outputs ++ [.dataAck false]
        mgmt := { s.mgmt.setBuf b .empty with refusing := true } }) ∧
  ∀ (s : State) (data : List Byte), (∀ b x, s.mgmt.buf b ≠ .receiving x) →
    (s.mgmt.refusing = false → exec (.writeTransferStart ⟨none, data⟩) s = .next s) ∧
    (s.mgmt.refusing = true → exec (.writeTransferStart ⟨none, data⟩) s = .next { s with
      outputs := s.outputs ++ data.map fun _ => .dataAck false })

/-- A read transfer: with no buffer ANSWERED, the byte A5h; otherwise the response whose frame arrived first;
FFh beyond its end; the buffer becomes EMPTY exactly when the check byte has been sent. The transfer on the bus
goes on with the bytes left, and with FFh where it has none: after the frame's end, or where a RESET discarded
the response (R170). Another address is not acknowledged. The start of any transfer ends the one before. A
response frame is its status code, the command code, the sequence number, the payload length, the payload and
the CRC-8 of those, whose worked value for "123456789" is F4h. That the lower sequence number, modulo 256,
arrived first is the model's reading (log 17). -/
def Obligations.ReadTransferReturns : Prop :=
  (∀ r : Response, ∃ body : List Byte, r.bytes = body ++ [crc8 body] ∧
    body = [r.status.code, r.code, r.seq, byte r.payload.length] ++ r.payload) ∧
  ([Status.ok, .badCheck, .unknownCommand, .badLength, .badArgument, .starting, .busy, .exists_, .notFound,
      .inUse, .dirty, .wrongState, .full, .sequence, .length, .invalidMap, .badCatalog, .linkStalled,
      .stillBusy].map Status.code = (List.range 19).map byte) ∧
  crc8 ((List.range 9).map fun n => byte (0x31 + n)) = 0xF4 ∧
  (∀ (s : State) (count : Nat), s.pins.inReset = false →
    ((∀ b r, s.mgmt.buf b ≠ .answered r) →
      ∃ t, exec (.readTransfer (some s.targetAddress) count) s = .next t ∧
        t.outputs = s.outputs ++ [.addressAck true,
          .sent ([0xA5].take count ++ List.replicate (count - 1) 0xFF)] ∧
        (∀ b, t.mgmt.buf b = (s.mgmt.buf b).discard) ∧ t.mgmt.seq = s.mgmt.seq ∧
        t.mgmt.executor = s.mgmt.executor ∧ t.mgmt.mark = s.mgmt.mark ∧ t.mgmt.scan = s.mgmt.scan ∧
        t.mgmt.refusing = false ∧ t.mgmt.reading = some ⟨none, [0xA5].drop count⟩ ∧
        SameBut [.outputs, .mgmt] s t) ∧
    ∀ b r, s.mgmt.buf b = .answered r →
      (∀ r', s.mgmt.buf b.other = .answered r' →
        0 < (r'.seq - r.seq).toNat ∧ (r'.seq - r.seq).toNat < 128) →
      ∃ t, exec (.readTransfer (some s.targetAddress) count) s = .next t ∧
        t.outputs = s.outputs ++ [.addressAck true,
          .sent (r.bytes.take count ++ List.replicate (count - r.bytes.length) 0xFF)] ∧
        t.mgmt.buf b = (if r.bytes.length ≤ count then .empty else .answered r) ∧
        t.mgmt.buf b.other = (s.mgmt.buf b.other).discard ∧ t.mgmt.seq = s.mgmt.seq ∧
        t.mgmt.executor = s.mgmt.executor ∧ t.mgmt.mark = s.mgmt.mark ∧ t.mgmt.scan = s.mgmt.scan ∧
        t.mgmt.refusing = false ∧
        t.mgmt.reading =
          some (if r.bytes.length ≤ count then ⟨none, []⟩ else ⟨some b, r.bytes.drop count⟩) ∧
        SameBut [.outputs, .mgmt] s t) ∧
  (∀ (s : State) (a : BitVec 7) (count : Nat), (s.pins.inReset = true ∨ a ≠ s.targetAddress) →
    exec (.readTransfer (some a) count) s = .next { s with
      outputs := s.outputs ++ [.addressAck false]
      mgmt := { s.mgmt with
        bufA := s.mgmt.bufA.discard
        bufB := s.mgmt.bufB.discard
        reading := none
        refusing := false } }) ∧
  ∀ (s : State) (count : Nat) (source : Option BufId) (left : List Byte),
    s.mgmt.reading = some ⟨source, left⟩ →
    exec (.readTransfer none count) s = .next { s with
      outputs := s.outputs ++ [.sent (left.take count ++ List.replicate (count - left.length) 0xFF)]
      mgmt := match source with
        | some b =>
          if left.length ≤ count then { s.mgmt.setBuf b .empty with reading := some ⟨none, []⟩ }
          else { s.mgmt with reading := some ⟨some b, left.drop count⟩ }
        | none => { s.mgmt with reading := some ⟨none, left.drop count⟩ } }

/-- EXECUTOR_TAKE: the idle executor takes the PENDING buffer whose frame completed first. A frame that passes
the four checks is handed to its owner; one that fails is answered with payload length 0 and not executed:
BAD_CHECK, UNKNOWN_COMMAND, BAD_LENGTH, STARTING, in that order. The known codes and the payload lengths each
accepts are those of 10.2. -/
def Obligations.ExecutorTakes : Prop :=
  (∀ code : Byte, acceptedLengths code =
    if code = 0x32 then some (4, 67)
    else if code ∈ [0x01, 0x02, 0x04, 0x12, 0x14, 0x33, 0x41] then some (0, 0)
    else if code ∈ [0x05, 0x11, 0x24, 0x30, 0x31, 0x34] then some (1, 1)
    else if code ∈ [0x13, 0x21, 0x22, 0x23] then some (2, 2)
    else if code ∈ [0x03, 0x40] then some (3, 3)
    else if code = 0x25 then some (4, 4)
    else if code = 0x20 then some (7, 7)
    else if code = 0x10 then some (12, 12)
    else none) ∧
  ∀ (s : State) (b : BufId) (f : Frame) (q : BitVec 8) (ok : Bool), s.mgmt.executor = .idle →
    s.mgmt.buf b = .pending f q ok →
    (∀ g q' ok', s.mgmt.buf b.other = .pending g q' ok' → 0 < (q' - q).toNat ∧ (q' - q).toNat < 128) →
    ∃ t, exec .executorTake s = .next t ∧ SameBut [.mgmt] s t ∧
      t.mgmt.buf b.other = s.mgmt.buf b.other ∧ t.mgmt.seq = s.mgmt.seq ∧ t.mgmt.mark = s.mgmt.mark ∧
      t.mgmt.reading = s.mgmt.reading ∧
      let refused := fun st : Status =>
        t.mgmt.buf b = .answered ⟨st, f.code, q, []⟩ ∧ t.mgmt.executor = .idle
      if ok = false then refused .badCheck
      else match acceptedLengths f.code with
        | none => refused .unknownCommand
        | some (lo, hi) =>
          if f.payload.length < lo ∨ hi < f.payload.length then refused .badLength
          else if s.startup.stage ≠ .run ∧ f.code ≠ 0x01 ∧ f.code ≠ 0x02 ∧ f.code ≠ 0x05 then
            refused .starting
          else t.handed f.code = some (b, f.payload) ∧ t.mgmt.buf b = .executing f q

/-- IDENTIFY returns its seventeen bytes, and STATUS 34 bytes with the items of every owner in their places;
neither changes anything else. STATUS reads the nine owners one after another, each from the part as it then is,
and the response is placed in the event that reads the last. How many owners one event reads is an operand of the
model (log 13), and bytes received is 0 while it is absent (log 18). States, stages, outcomes and holders have the
codes of 10.7. -/
def Obligations.IdentifyAndStatus : Prop :=
  (∀ (f : Frame) (q : BitVec 8) (ok : Bool) (bytes : List Byte) (r : Response),
    [CmdBuffer.empty, .receiving bytes, .pending f q ok, .executing f q, .answered r].map CmdBuffer.code =
      [0, 1, 2, 3, 4]) ∧
  ([Stage.poll, .record, .catalog, .map, .preload, .commit, .run].map Stage.code =
      [0x00, 0x01, 0x02, 0x03, 0x04, 0x05, 0x06] ∧
    [StartOutcome.ok, .disabled, .noRecord, .badCatalog, .badMap, .linkStalled].map StartOutcome.code =
      [0x00, 0x01, 0x02, 0x03, 0x04, 0x05] ∧
    [LinkState.ready, .busyWait, .stalled].map LinkState.code = [0x00, 0x01, 0x02] ∧
    [Holder.none, .r, .w, .l, .poll].map Holder.code = [0x00, 0x01, 0x02, 0x03, 0x04]) ∧
  (∀ (i : SegId) (o : Origin) (n d : Nat) (c : BitVec 16),
    [Engine.idle, .awaitHost i d, .loadingHost i o n c d, .loadingCatalog i o n c].map Engine.code =
      [0x00, 0x01, 0x02, 0x03]) ∧
  ([FillOutcome.done, .undone, .reset].map FillOutcome.code = [0x10, 0x11, 0x12] ∧
    ∀ r : FailReason, (FillOutcome.failed r).code = match r with
      | .startTimeout => 0x01 | .dataTimeout => 0x02 | .crc => 0x03 | .length => 0x04 | .noSpace => 0x05
      | .aborted => 0x06 | .dnStalled => 0x07) ∧
  (∀ (s : State) (b : BufId) (p : List Byte), s.handed 0x01 = some (b, p) →
    ∃ t, exec .identify s = .next t ∧ SameBut [.mgmt] s t ∧
      Answered b .ok [0x51, 0x3A, 0x12, 0x05, 1, 32, 62, 0, 2, 0, 1, 16, 8, 8, 8, 15, 72] s t) ∧
  (∀ s : State, (statusParts s).map List.length = [4, 2, 2, 3, 3, 12, 2, 4, 2]) ∧
  (∀ (s : State) (b : BufId) (p : List Byte) (owners : Nat) (parts : List (List Byte)),
    s.handed 0x02 = some (b, p) →
    parts = s.mgmt.scan ++ ((statusParts s).drop s.mgmt.scan.length).take owners →
    (parts.length < 9 → exec (.status owners) s = .next { s with mgmt := { s.mgmt with scan := parts } }) ∧
    (9 ≤ parts.length → ∃ t, exec (.status owners) s = .next t ∧ SameBut [.mgmt] s t ∧
      Answered b .ok parts.flatten s t)) ∧
  ∀ (s : State) (b : BufId) (p pl : List Byte), s.handed 0x02 = some (b, p) → s.mgmt.scan = [] →
    pl = (statusParts s).flatten →
    ∃ t, exec (.status 9) s = .next t ∧ SameBut [.mgmt] s t ∧ Answered b .ok pl s t ∧ pl.length = 34 ∧
      pl[0]? = some (byte (s.pins.sz.toNat + (if s.pins.bootEn then 8 else 0) + 16 * s.pins.ma.toNat)) ∧
      pl[1]? = some (byte (if s.pins.sz.toNat ≤ 4 then 2 ^ s.pins.sz.toNat else 16)) ∧
      pl[2]? = some (byte (s.mgmt.bufA.code + 16 * s.mgmt.bufB.code)) ∧ pl[3]? = some s.mgmt.seq ∧
      pl[4]? = some s.startup.stage.code ∧ pl[5]? = some s.startup.outcome.code ∧
      (pl.drop 6).take 2 = leBytes 2 s.map.generation.toNat ∧
      (pl.drop 8).take 2 = leBytes 2 s.store.free.length ∧
      pl[10]? = some (byte s.store.residence.length) ∧
      pl[11]? = some (byte s.port.tags.length) ∧ pl[12]? = some (byte s.port.readQueue.length) ∧
      pl[13]? = some (byte s.port.held.length) ∧ pl[14]? = some s.fill.engine.code ∧
      pl[15]? = some (match s.fill.engine with
        | .idle => 0x00
        | .awaitHost i _ | .loadingHost i _ _ _ _ | .loadingCatalog i _ _ _ => byte (segNum i)) ∧
      pl[16]? = some (byte s.fill.queue.length) ∧
      (pl.drop 17).take 3 = leBytes 3 (match s.fill.engine with
        | .loadingHost _ _ n _ _ | .loadingCatalog _ _ n _ => n
        | .idle | .awaitHost _ _ => 0) ∧
      (pl.drop 20).take 2 = (match s.fill.lastEnd with
        | some (i, o) => [byte (segNum i), o.code]
        | none => [0x00, 0x00]) ∧
      (pl.drop 22).take 2 = leBytes 2 s.fill.startTimeout ∧
      (pl.drop 24).take 2 = leBytes 2 s.fill.gapTimeout ∧
      pl[26]? = some (byte s.write.queue.length) ∧ pl[27]? = some (byte s.write.highWater) ∧
      pl[28]? = some s.ctl.link.code ∧ pl[29]? = some s.ctl.holder.code ∧
      pl[30]? = some (byte s.ctl.busyTimeout) ∧ pl[31]? = some (byte s.ctl.divider) ∧
      pl[32]? = some (byte s.events.records.length) ∧ pl[33]? = some (byte s.events.lost)

/-- SET_PARAM: the five parameters with their legal values; any other identifier or value is refused
BAD_ARGUMENT and changes nothing. -/
def Obligations.SetParamEffect : Prop :=
  ∀ (s : State) (b : BufId) (p : List Byte) (k v : Nat), s.handed 0x03 = some (b, p) →
    k = (byteAt p 0).toNat → v = field p 1 2 →
    ∃ t, exec .setParam s = .next t ∧ SameBut [.fill, .write, .ctl, .mgmt] s t ∧
      if (k = 1 ∨ k = 2) ∧ 1 ≤ v ∨ k = 3 ∧ 1 ≤ v ∧ v ≤ 8 ∨ k = 4 ∧ 1 ≤ v ∧ v ≤ 255 ∨
          k = 5 ∧ (v = 2 ∨ v = 4 ∨ v = 8 ∨ v = 16) then
        Answered b .ok (byte k :: leBytes 2 v) s t ∧
        t.fill = { s.fill with
          startTimeout := if k = 1 then v else s.fill.startTimeout
          gapTimeout := if k = 2 then v else s.fill.gapTimeout } ∧
        t.write = { s.write with highWater := if k = 3 then v else s.write.highWater } ∧
        t.ctl = { s.ctl with
          busyTimeout := if k = 4 then v else s.ctl.busyTimeout
          divider := if k = 5 then v else s.ctl.divider }
      else Answered b .badArgument [] s t ∧ SameBut [.mgmt] s t

/-! ### Events -/

/-- A posted event is stored at the tail or counted as lost, the count held at 255, and takes a sequence
number either way; after a post to a queue that has lost none, ATTN_N is low. -/
def Obligations.EventPosted : Prop :=
  ∀ (s : State) (e : Event), (s.post e).events.seq = s.events.seq + 1 ∧
    SameBut [.events] s (s.post e) ∧ (s.events.lost = 0 → (s.post e).attnLow = true) ∧
    (if s.events.lost = 0 ∧ s.events.records.length < 15 then
      (s.post e).events.records = s.events.records ++ [⟨e, s.events.seq⟩] ∧ (s.post e).events.lost = 0
    else (s.post e).events.records = s.events.records ∧ (s.post e).attnLow = s.attnLow ∧
      (s.post e).events.lost = if s.events.lost < 255 then s.events.lost + 1 else 255)

/-- EVENT_READ removes up to max records from the head, appends EVENTS_LOST where one is due, and returns the
removed records; ATTN_N is released where the queue is then empty; a max of 0 or above 4 is refused
BAD_ARGUMENT. A record is sixteen bytes: its kind, its sequence number, the fields of its kind and 00h beyond
them. -/
def Obligations.EventReadEffect : Prop :=
  (∀ (e : Event) (q : BitVec 8) (fs : List Byte), fs = (match e with
      | .fillRequest i len crc held => [0x01, q, byte (segNum i), byte len, byte (len / 256), byte (len / 65536),
          byte crc.toNat, byte (crc.toNat / 256), byte held]
      | .fillDone i o n => [0x02, q, byte (segNum i), match o with
          | .queue => 0x01
          | .direct _ => 0x02, byte n]
      | .fillFailed i r n => [0x03, q, byte (segNum i), match r with
          | .startTimeout => 0x01 | .dataTimeout => 0x02 | .crc => 0x03 | .length => 0x04 | .noSpace => 0x05
          | .aborted => 0x06 | .dnStalled => 0x07, byte n]
      | .evicted i n j => [0x04, q, byte (segNum i), byte n, byte (n / 256), byte (segNum j)]
      | .readFault tag a n r i => [0x05, q, byte tag.val, byte a, byte (a / 256), byte (a / 65536), byte n,
          r.code, match i with
          | some i => byte (segNum i)
          | none => 0x00]
      | .writeFault a n r i => [0x06, q, byte a, byte (a / 256), byte (a / 65536), byte n, r.code, match i with
          | some i => byte (segNum i)
          | none => 0x00]
      | .dnStalled none n failed => [0x07, q, 0, 0, 0, 0, byte n, if failed then 0x01 else 0x00]
      | .dnStalled (some (a, len)) n failed => [0x07, q, byte a, byte (a / 256), byte (a / 65536), byte len,
          byte n, if failed then 0x01 else 0x00]
      | .catalogConflict id r => [0x08, q, id, match r with
          | .exists_ => 0x01
          | .badDescriptor => 0x02]
      | .startupDone o g n m => [0x09, q, match o with
          | .ok => 0x00 | .disabled => 0x01 | .noRecord => 0x02 | .badCatalog => 0x03 | .badMap => 0x04
          | .linkStalled => 0x05, byte g.toNat, byte (g.toNat / 256), byte n, byte m]
      | .eventsLost n => [0x0A, q, byte n]) →
    EventRec.bytes ⟨e, q⟩ = fs ++ List.replicate (16 - fs.length) 0 ∧ (EventRec.bytes ⟨e, q⟩).length = 16) ∧
  ([AccessFault.align, .segFailed, .mapFault, .range, .linkStalled, .notResident, .writeFault].map
    AccessFault.code = [0x01, 0x02, 0x03, 0x04, 0x05, 0x06, 0x07]) ∧
  ∀ (s : State) (b : BufId) (p : List Byte) (m : Nat), s.handed 0x05 = some (b, p) →
    m = (byteAt p 0).toNat →
    ∃ t, exec .eventRead s = .next t ∧
      if m = 0 ∨ 4 < m then Answered b .badArgument [] s t ∧ SameBut [.mgmt] s t
      else
        SameBut [.events, .mgmt] s t ∧ t.attnLow = !t.events.records.isEmpty ∧
        Answered b .ok (byte (min m s.events.records.length) ::
          ((s.events.records.take m).map EventRec.bytes).flatten) s t ∧
        if 0 < s.events.lost ∧ (s.events.records.drop m).all (fun r => !r.isLost) = true then
          t.events = {
            records := s.events.records.drop m ++ [⟨.eventsLost s.events.lost, s.events.seq⟩]
            lost := 0
            seq := s.events.seq + 1 }
        else t.events = { s.events with records := s.events.records.drop m }

/-! ### Laws that every step keeps -/

/-- Every law holds of the part right after power-on. -/
def Obligations.ResetMeetsLaws : Prop :=
  EventsLaw State.reset ∧ MemoryLaw State.reset ∧ EntriesLaw State.reset ∧ ActiveLaw State.reset ∧
    StoreLaw State.reset ∧ PortLaw State.reset ∧ StalledLaw State.reset ∧ QueueLaw State.reset

/-- The event queue keeps its law, the fill queue and the write queue never exceed eight entries, and a STALLED
link carries no transaction but a status poll. -/
def Obligations.QueueAndLinkLawsKept : Prop :=
  ∀ s t : State, step s = .next t →
    (EventsLaw s → EventsLaw t) ∧ (QueueLaw s → QueueLaw t) ∧ (StalledLaw s → StalledLaw t)

/-- Overlay memory keeps its canonical form. -/
def Obligations.MemoryLawKept : Prop := ∀ s t : State, MemoryLaw s → step s = .next t → MemoryLaw t

/-- Every valid entry of either bank stays legal, and the ACTIVE bank keeps its law. -/
def Obligations.MapLawsKept : Prop :=
  ∀ s t : State, step s = .next t → (EntriesLaw s → EntriesLaw t) ∧ (ActiveLaw s → ActiveLaw t)

/-- Blocks are conserved, and the store, the residence list, the fill queue and the engine stay in step. -/
def Obligations.StoreLawKept : Prop := ∀ s t : State, StoreLaw s → step s = .next t → StoreLaw t

/-- The outstanding tags, the held reads and the presentation that waits for its enquiry keep their law. -/
def Obligations.PortLawKept : Prop :=
  ∀ s t : State, StoreLaw s → PortLaw s → step s = .next t → PortLaw t
end

