-- ==== Sys2Proof/Laws/State.lean ====
section
/-! SUPPORT. One lemma per field per update of the state, each true by rfl: what an update leaves alone, and
what it writes. -/

namespace Sys2Proof.Machine

variable (s : State)

/-! ### State.post -/

@[simp] theorem State.post_pending (e : Event) : (s.post e).pending = s.pending := rfl
@[simp] theorem State.post_outputs (e : Event) : (s.post e).outputs = s.outputs := rfl
@[simp] theorem State.post_pins (e : Event) : (s.post e).pins = s.pins := rfl
@[simp] theorem State.post_map (e : Event) : (s.post e).map = s.map := rfl
@[simp] theorem State.post_store (e : Event) : (s.post e).store = s.store := rfl
@[simp] theorem State.post_port (e : Event) : (s.post e).port = s.port := rfl
@[simp] theorem State.post_fill (e : Event) : (s.post e).fill = s.fill := rfl
@[simp] theorem State.post_write (e : Event) : (s.post e).write = s.write := rfl
@[simp] theorem State.post_ctl (e : Event) : (s.post e).ctl = s.ctl := rfl
@[simp] theorem State.post_startup (e : Event) : (s.post e).startup = s.startup := rfl
@[simp] theorem State.post_mgmt (e : Event) : (s.post e).mgmt = s.mgmt := rfl

/-! ### State.postAll -/

@[simp] theorem State.postAll_pending (es : List Event) : (s.postAll es).pending = s.pending := rfl
@[simp] theorem State.postAll_outputs (es : List Event) : (s.postAll es).outputs = s.outputs := rfl
@[simp] theorem State.postAll_pins (es : List Event) : (s.postAll es).pins = s.pins := rfl
@[simp] theorem State.postAll_map (es : List Event) : (s.postAll es).map = s.map := rfl
@[simp] theorem State.postAll_store (es : List Event) : (s.postAll es).store = s.store := rfl
@[simp] theorem State.postAll_port (es : List Event) : (s.postAll es).port = s.port := rfl
@[simp] theorem State.postAll_fill (es : List Event) : (s.postAll es).fill = s.fill := rfl
@[simp] theorem State.postAll_write (es : List Event) : (s.postAll es).write = s.write := rfl
@[simp] theorem State.postAll_ctl (es : List Event) : (s.postAll es).ctl = s.ctl := rfl
@[simp] theorem State.postAll_startup (es : List Event) : (s.postAll es).startup = s.startup := rfl
@[simp] theorem State.postAll_mgmt (es : List Event) : (s.postAll es).mgmt = s.mgmt := rfl

/-! ### State.emit -/

@[simp] theorem State.emit_pending (o : Output) : (s.emit o).pending = s.pending := rfl
@[simp] theorem State.emit_pins (o : Output) : (s.emit o).pins = s.pins := rfl
@[simp] theorem State.emit_map (o : Output) : (s.emit o).map = s.map := rfl
@[simp] theorem State.emit_store (o : Output) : (s.emit o).store = s.store := rfl
@[simp] theorem State.emit_port (o : Output) : (s.emit o).port = s.port := rfl
@[simp] theorem State.emit_fill (o : Output) : (s.emit o).fill = s.fill := rfl
@[simp] theorem State.emit_write (o : Output) : (s.emit o).write = s.write := rfl
@[simp] theorem State.emit_ctl (o : Output) : (s.emit o).ctl = s.ctl := rfl
@[simp] theorem State.emit_startup (o : Output) : (s.emit o).startup = s.startup := rfl
@[simp] theorem State.emit_mgmt (o : Output) : (s.emit o).mgmt = s.mgmt := rfl
@[simp] theorem State.emit_events (o : Output) : (s.emit o).events = s.events := rfl

/-! ### State.emitAll -/

@[simp] theorem State.emitAll_pending (os : List Output) : (s.emitAll os).pending = s.pending := rfl
@[simp] theorem State.emitAll_pins (os : List Output) : (s.emitAll os).pins = s.pins := rfl
@[simp] theorem State.emitAll_map (os : List Output) : (s.emitAll os).map = s.map := rfl
@[simp] theorem State.emitAll_store (os : List Output) : (s.emitAll os).store = s.store := rfl
@[simp] theorem State.emitAll_port (os : List Output) : (s.emitAll os).port = s.port := rfl
@[simp] theorem State.emitAll_fill (os : List Output) : (s.emitAll os).fill = s.fill := rfl
@[simp] theorem State.emitAll_write (os : List Output) : (s.emitAll os).write = s.write := rfl
@[simp] theorem State.emitAll_ctl (os : List Output) : (s.emitAll os).ctl = s.ctl := rfl
@[simp] theorem State.emitAll_startup (os : List Output) : (s.emitAll os).startup = s.startup := rfl
@[simp] theorem State.emitAll_mgmt (os : List Output) : (s.emitAll os).mgmt = s.mgmt := rfl
@[simp] theorem State.emitAll_events (os : List Output) : (s.emitAll os).events = s.events := rfl

/-! ### State.errorHeld -/

@[simp] theorem State.errorHeld_pending (i : SegId) : (s.errorHeld i).pending = s.pending := rfl
@[simp] theorem State.errorHeld_pins (i : SegId) : (s.errorHeld i).pins = s.pins := rfl
@[simp] theorem State.errorHeld_map (i : SegId) : (s.errorHeld i).map = s.map := rfl
@[simp] theorem State.errorHeld_fill (i : SegId) : (s.errorHeld i).fill = s.fill := rfl
@[simp] theorem State.errorHeld_write (i : SegId) : (s.errorHeld i).write = s.write := rfl
@[simp] theorem State.errorHeld_ctl (i : SegId) : (s.errorHeld i).ctl = s.ctl := rfl
@[simp] theorem State.errorHeld_startup (i : SegId) : (s.errorHeld i).startup = s.startup := rfl
@[simp] theorem State.errorHeld_mgmt (i : SegId) : (s.errorHeld i).mgmt = s.mgmt := rfl
@[simp] theorem State.errorHeld_events (i : SegId) : (s.errorHeld i).events = s.events := rfl

/-! ### State.replayHeld -/

@[simp] theorem State.replayHeld_pending (i : SegId) : (s.replayHeld i).pending = s.pending := rfl
@[simp] theorem State.replayHeld_pins (i : SegId) : (s.replayHeld i).pins = s.pins := rfl
@[simp] theorem State.replayHeld_map (i : SegId) : (s.replayHeld i).map = s.map := rfl
@[simp] theorem State.replayHeld_store (i : SegId) : (s.replayHeld i).store = s.store := rfl
@[simp] theorem State.replayHeld_fill (i : SegId) : (s.replayHeld i).fill = s.fill := rfl
@[simp] theorem State.replayHeld_write (i : SegId) : (s.replayHeld i).write = s.write := rfl
@[simp] theorem State.replayHeld_ctl (i : SegId) : (s.replayHeld i).ctl = s.ctl := rfl
@[simp] theorem State.replayHeld_startup (i : SegId) : (s.replayHeld i).startup = s.startup := rfl
@[simp] theorem State.replayHeld_mgmt (i : SegId) : (s.replayHeld i).mgmt = s.mgmt := rfl
@[simp] theorem State.replayHeld_events (i : SegId) : (s.replayHeld i).events = s.events := rfl

/-! ### State.beginTx -/

@[simp] theorem State.beginTx_pending (op : TxOp) : (s.beginTx op).pending = s.pending := rfl
@[simp] theorem State.beginTx_pins (op : TxOp) : (s.beginTx op).pins = s.pins := rfl
@[simp] theorem State.beginTx_map (op : TxOp) : (s.beginTx op).map = s.map := rfl
@[simp] theorem State.beginTx_store (op : TxOp) : (s.beginTx op).store = s.store := rfl
@[simp] theorem State.beginTx_port (op : TxOp) : (s.beginTx op).port = s.port := rfl
@[simp] theorem State.beginTx_fill (op : TxOp) : (s.beginTx op).fill = s.fill := rfl
@[simp] theorem State.beginTx_write (op : TxOp) : (s.beginTx op).write = s.write := rfl
@[simp] theorem State.beginTx_startup (op : TxOp) : (s.beginTx op).startup = s.startup := rfl
@[simp] theorem State.beginTx_mgmt (op : TxOp) : (s.beginTx op).mgmt = s.mgmt := rfl
@[simp] theorem State.beginTx_events (op : TxOp) : (s.beginTx op).events = s.events := rfl

/-! ### State.freeLink -/

@[simp] theorem State.freeLink_pending : s.freeLink.pending = s.pending := rfl
@[simp] theorem State.freeLink_outputs : s.freeLink.outputs = s.outputs := rfl
@[simp] theorem State.freeLink_pins : s.freeLink.pins = s.pins := rfl
@[simp] theorem State.freeLink_map : s.freeLink.map = s.map := rfl
@[simp] theorem State.freeLink_store : s.freeLink.store = s.store := rfl
@[simp] theorem State.freeLink_port : s.freeLink.port = s.port := rfl
@[simp] theorem State.freeLink_fill : s.freeLink.fill = s.fill := rfl
@[simp] theorem State.freeLink_write : s.freeLink.write = s.write := rfl
@[simp] theorem State.freeLink_startup : s.freeLink.startup = s.startup := rfl
@[simp] theorem State.freeLink_mgmt : s.freeLink.mgmt = s.mgmt := rfl
@[simp] theorem State.freeLink_events : s.freeLink.events = s.events := rfl

/-! ### State.stallLink -/

@[simp] theorem State.stallLink_pending : s.stallLink.pending = s.pending := rfl
@[simp] theorem State.stallLink_outputs : s.stallLink.outputs = s.outputs := rfl
@[simp] theorem State.stallLink_pins : s.stallLink.pins = s.pins := rfl
@[simp] theorem State.stallLink_map : s.stallLink.map = s.map := rfl
@[simp] theorem State.stallLink_store : s.stallLink.store = s.store := rfl
@[simp] theorem State.stallLink_port : s.stallLink.port = s.port := rfl
@[simp] theorem State.stallLink_fill : s.stallLink.fill = s.fill := rfl
@[simp] theorem State.stallLink_write : s.stallLink.write = s.write := rfl
@[simp] theorem State.stallLink_startup : s.stallLink.startup = s.startup := rfl
@[simp] theorem State.stallLink_mgmt : s.stallLink.mgmt = s.mgmt := rfl
@[simp] theorem State.stallLink_events : s.stallLink.events = s.events := rfl

/-! ### State.respond -/

@[simp] theorem State.respond_pending (b : BufId) (st : Status) (p : List Byte) : (s.respond b st p).pending = s.pending := rfl
@[simp] theorem State.respond_outputs (b : BufId) (st : Status) (p : List Byte) : (s.respond b st p).outputs = s.outputs := rfl
@[simp] theorem State.respond_pins (b : BufId) (st : Status) (p : List Byte) : (s.respond b st p).pins = s.pins := rfl
@[simp] theorem State.respond_map (b : BufId) (st : Status) (p : List Byte) : (s.respond b st p).map = s.map := rfl
@[simp] theorem State.respond_store (b : BufId) (st : Status) (p : List Byte) : (s.respond b st p).store = s.store := rfl
@[simp] theorem State.respond_port (b : BufId) (st : Status) (p : List Byte) : (s.respond b st p).port = s.port := rfl
@[simp] theorem State.respond_fill (b : BufId) (st : Status) (p : List Byte) : (s.respond b st p).fill = s.fill := rfl
@[simp] theorem State.respond_write (b : BufId) (st : Status) (p : List Byte) : (s.respond b st p).write = s.write := rfl
@[simp] theorem State.respond_ctl (b : BufId) (st : Status) (p : List Byte) : (s.respond b st p).ctl = s.ctl := rfl
@[simp] theorem State.respond_startup (b : BufId) (st : Status) (p : List Byte) : (s.respond b st p).startup = s.startup := rfl
@[simp] theorem State.respond_events (b : BufId) (st : Status) (p : List Byte) : (s.respond b st p).events = s.events := rfl

/-! ### State.enqueueFill -/

@[simp] theorem State.enqueueFill_pending (i : SegId) : (s.enqueueFill i).pending = s.pending := rfl
@[simp] theorem State.enqueueFill_outputs (i : SegId) : (s.enqueueFill i).outputs = s.outputs := rfl
@[simp] theorem State.enqueueFill_pins (i : SegId) : (s.enqueueFill i).pins = s.pins := rfl
@[simp] theorem State.enqueueFill_map (i : SegId) : (s.enqueueFill i).map = s.map := rfl
@[simp] theorem State.enqueueFill_port (i : SegId) : (s.enqueueFill i).port = s.port := rfl
@[simp] theorem State.enqueueFill_write (i : SegId) : (s.enqueueFill i).write = s.write := rfl
@[simp] theorem State.enqueueFill_ctl (i : SegId) : (s.enqueueFill i).ctl = s.ctl := rfl
@[simp] theorem State.enqueueFill_startup (i : SegId) : (s.enqueueFill i).startup = s.startup := rfl
@[simp] theorem State.enqueueFill_mgmt (i : SegId) : (s.enqueueFill i).mgmt = s.mgmt := rfl
@[simp] theorem State.enqueueFill_events (i : SegId) : (s.enqueueFill i).events = s.events := rfl

/-! ### State.admitRead -/

@[simp] theorem State.admitRead_pending (q : ReadRequest) : (s.admitRead q).pending = s.pending := rfl
@[simp] theorem State.admitRead_pins (q : ReadRequest) : (s.admitRead q).pins = s.pins := rfl
@[simp] theorem State.admitRead_map (q : ReadRequest) : (s.admitRead q).map = s.map := rfl
@[simp] theorem State.admitRead_store (q : ReadRequest) : (s.admitRead q).store = s.store := rfl
@[simp] theorem State.admitRead_fill (q : ReadRequest) : (s.admitRead q).fill = s.fill := rfl
@[simp] theorem State.admitRead_write (q : ReadRequest) : (s.admitRead q).write = s.write := rfl
@[simp] theorem State.admitRead_ctl (q : ReadRequest) : (s.admitRead q).ctl = s.ctl := rfl
@[simp] theorem State.admitRead_startup (q : ReadRequest) : (s.admitRead q).startup = s.startup := rfl
@[simp] theorem State.admitRead_mgmt (q : ReadRequest) : (s.admitRead q).mgmt = s.mgmt := rfl
@[simp] theorem State.admitRead_events (q : ReadRequest) : (s.admitRead q).events = s.events := rfl

/-! ### State.holdRead -/

@[simp] theorem State.holdRead_pending (q : ReadRequest) (h : Hit) : (s.holdRead q h).pending = s.pending := rfl
@[simp] theorem State.holdRead_pins (q : ReadRequest) (h : Hit) : (s.holdRead q h).pins = s.pins := rfl
@[simp] theorem State.holdRead_map (q : ReadRequest) (h : Hit) : (s.holdRead q h).map = s.map := rfl
@[simp] theorem State.holdRead_fill (q : ReadRequest) (h : Hit) : (s.holdRead q h).fill = s.fill := rfl
@[simp] theorem State.holdRead_write (q : ReadRequest) (h : Hit) : (s.holdRead q h).write = s.write := rfl
@[simp] theorem State.holdRead_ctl (q : ReadRequest) (h : Hit) : (s.holdRead q h).ctl = s.ctl := rfl
@[simp] theorem State.holdRead_startup (q : ReadRequest) (h : Hit) : (s.holdRead q h).startup = s.startup := rfl
@[simp] theorem State.holdRead_mgmt (q : ReadRequest) (h : Hit) : (s.holdRead q h).mgmt = s.mgmt := rfl
@[simp] theorem State.holdRead_events (q : ReadRequest) (h : Hit) : (s.holdRead q h).events = s.events := rfl

/-! ### State.setLooked -/

@[simp] theorem State.setLooked_pending (p : Option Looked) : (s.setLooked p).pending = s.pending := rfl
@[simp] theorem State.setLooked_outputs (p : Option Looked) : (s.setLooked p).outputs = s.outputs := rfl
@[simp] theorem State.setLooked_pins (p : Option Looked) : (s.setLooked p).pins = s.pins := rfl
@[simp] theorem State.setLooked_map (p : Option Looked) : (s.setLooked p).map = s.map := rfl
@[simp] theorem State.setLooked_store (p : Option Looked) : (s.setLooked p).store = s.store := rfl
@[simp] theorem State.setLooked_fill (p : Option Looked) : (s.setLooked p).fill = s.fill := rfl
@[simp] theorem State.setLooked_write (p : Option Looked) : (s.setLooked p).write = s.write := rfl
@[simp] theorem State.setLooked_ctl (p : Option Looked) : (s.setLooked p).ctl = s.ctl := rfl
@[simp] theorem State.setLooked_startup (p : Option Looked) : (s.setLooked p).startup = s.startup := rfl
@[simp] theorem State.setLooked_mgmt (p : Option Looked) : (s.setLooked p).mgmt = s.mgmt := rfl
@[simp] theorem State.setLooked_events (p : Option Looked) : (s.setLooked p).events = s.events := rfl

/-! ### State.endFill -/

@[simp] theorem State.endFill_pending (i : SegId) (o : FillOutcome) : (s.endFill i o).pending = s.pending := rfl
@[simp] theorem State.endFill_outputs (i : SegId) (o : FillOutcome) : (s.endFill i o).outputs = s.outputs := rfl
@[simp] theorem State.endFill_pins (i : SegId) (o : FillOutcome) : (s.endFill i o).pins = s.pins := rfl
@[simp] theorem State.endFill_map (i : SegId) (o : FillOutcome) : (s.endFill i o).map = s.map := rfl
@[simp] theorem State.endFill_store (i : SegId) (o : FillOutcome) : (s.endFill i o).store = s.store := rfl
@[simp] theorem State.endFill_port (i : SegId) (o : FillOutcome) : (s.endFill i o).port = s.port := rfl
@[simp] theorem State.endFill_write (i : SegId) (o : FillOutcome) : (s.endFill i o).write = s.write := rfl
@[simp] theorem State.endFill_ctl (i : SegId) (o : FillOutcome) : (s.endFill i o).ctl = s.ctl := rfl
@[simp] theorem State.endFill_startup (i : SegId) (o : FillOutcome) : (s.endFill i o).startup = s.startup := rfl
@[simp] theorem State.endFill_mgmt (i : SegId) (o : FillOutcome) : (s.endFill i o).mgmt = s.mgmt := rfl
@[simp] theorem State.endFill_events (i : SegId) (o : FillOutcome) : (s.endFill i o).events = s.events := rfl

/-! ### State.setEngine -/

@[simp] theorem State.setEngine_pending (e : Engine) : (s.setEngine e).pending = s.pending := rfl
@[simp] theorem State.setEngine_outputs (e : Engine) : (s.setEngine e).outputs = s.outputs := rfl
@[simp] theorem State.setEngine_pins (e : Engine) : (s.setEngine e).pins = s.pins := rfl
@[simp] theorem State.setEngine_map (e : Engine) : (s.setEngine e).map = s.map := rfl
@[simp] theorem State.setEngine_store (e : Engine) : (s.setEngine e).store = s.store := rfl
@[simp] theorem State.setEngine_port (e : Engine) : (s.setEngine e).port = s.port := rfl
@[simp] theorem State.setEngine_write (e : Engine) : (s.setEngine e).write = s.write := rfl
@[simp] theorem State.setEngine_ctl (e : Engine) : (s.setEngine e).ctl = s.ctl := rfl
@[simp] theorem State.setEngine_startup (e : Engine) : (s.setEngine e).startup = s.startup := rfl
@[simp] theorem State.setEngine_mgmt (e : Engine) : (s.setEngine e).mgmt = s.mgmt := rfl
@[simp] theorem State.setEngine_events (e : Engine) : (s.setEngine e).events = s.events := rfl

/-! ### State.withdrawChunk -/

@[simp] theorem State.withdrawChunk_pending : s.withdrawChunk.pending = s.pending := rfl
@[simp] theorem State.withdrawChunk_outputs : s.withdrawChunk.outputs = s.outputs := rfl
@[simp] theorem State.withdrawChunk_pins : s.withdrawChunk.pins = s.pins := rfl
@[simp] theorem State.withdrawChunk_map : s.withdrawChunk.map = s.map := rfl
@[simp] theorem State.withdrawChunk_store : s.withdrawChunk.store = s.store := rfl
@[simp] theorem State.withdrawChunk_port : s.withdrawChunk.port = s.port := rfl
@[simp] theorem State.withdrawChunk_fill : s.withdrawChunk.fill = s.fill := rfl
@[simp] theorem State.withdrawChunk_write : s.withdrawChunk.write = s.write := rfl
@[simp] theorem State.withdrawChunk_startup : s.withdrawChunk.startup = s.startup := rfl
@[simp] theorem State.withdrawChunk_mgmt : s.withdrawChunk.mgmt = s.mgmt := rfl
@[simp] theorem State.withdrawChunk_events : s.withdrawChunk.events = s.events := rfl

/-! ### State.enterFilling -/

@[simp] theorem State.enterFilling_pending (i : SegId) (o : Origin) (bs : List Block) (st : Store) (evs : List Event) : (s.enterFilling i o bs st evs).pending = s.pending := rfl
@[simp] theorem State.enterFilling_outputs (i : SegId) (o : Origin) (bs : List Block) (st : Store) (evs : List Event) : (s.enterFilling i o bs st evs).outputs = s.outputs := rfl
@[simp] theorem State.enterFilling_pins (i : SegId) (o : Origin) (bs : List Block) (st : Store) (evs : List Event) : (s.enterFilling i o bs st evs).pins = s.pins := rfl
@[simp] theorem State.enterFilling_map (i : SegId) (o : Origin) (bs : List Block) (st : Store) (evs : List Event) : (s.enterFilling i o bs st evs).map = s.map := rfl
@[simp] theorem State.enterFilling_port (i : SegId) (o : Origin) (bs : List Block) (st : Store) (evs : List Event) : (s.enterFilling i o bs st evs).port = s.port := rfl
@[simp] theorem State.enterFilling_fill (i : SegId) (o : Origin) (bs : List Block) (st : Store) (evs : List Event) : (s.enterFilling i o bs st evs).fill = s.fill := rfl
@[simp] theorem State.enterFilling_write (i : SegId) (o : Origin) (bs : List Block) (st : Store) (evs : List Event) : (s.enterFilling i o bs st evs).write = s.write := rfl
@[simp] theorem State.enterFilling_ctl (i : SegId) (o : Origin) (bs : List Block) (st : Store) (evs : List Event) : (s.enterFilling i o bs st evs).ctl = s.ctl := rfl
@[simp] theorem State.enterFilling_startup (i : SegId) (o : Origin) (bs : List Block) (st : Store) (evs : List Event) : (s.enterFilling i o bs st evs).startup = s.startup := rfl
@[simp] theorem State.enterFilling_mgmt (i : SegId) (o : Origin) (bs : List Block) (st : Store) (evs : List Event) : (s.enterFilling i o bs st evs).mgmt = s.mgmt := rfl

/-! ### State.setStage -/

@[simp] theorem State.setStage_pending (g : Stage) : (s.setStage g).pending = s.pending := rfl
@[simp] theorem State.setStage_outputs (g : Stage) : (s.setStage g).outputs = s.outputs := rfl
@[simp] theorem State.setStage_pins (g : Stage) : (s.setStage g).pins = s.pins := rfl
@[simp] theorem State.setStage_map (g : Stage) : (s.setStage g).map = s.map := rfl
@[simp] theorem State.setStage_store (g : Stage) : (s.setStage g).store = s.store := rfl
@[simp] theorem State.setStage_port (g : Stage) : (s.setStage g).port = s.port := rfl
@[simp] theorem State.setStage_fill (g : Stage) : (s.setStage g).fill = s.fill := rfl
@[simp] theorem State.setStage_write (g : Stage) : (s.setStage g).write = s.write := rfl
@[simp] theorem State.setStage_ctl (g : Stage) : (s.setStage g).ctl = s.ctl := rfl
@[simp] theorem State.setStage_mgmt (g : Stage) : (s.setStage g).mgmt = s.mgmt := rfl
@[simp] theorem State.setStage_events (g : Stage) : (s.setStage g).events = s.events := rfl

/-! ### State.countPreload -/

@[simp] theorem State.countPreload_pending (f : Bool) : (s.countPreload f).pending = s.pending := rfl
@[simp] theorem State.countPreload_outputs (f : Bool) : (s.countPreload f).outputs = s.outputs := rfl
@[simp] theorem State.countPreload_pins (f : Bool) : (s.countPreload f).pins = s.pins := rfl
@[simp] theorem State.countPreload_map (f : Bool) : (s.countPreload f).map = s.map := rfl
@[simp] theorem State.countPreload_store (f : Bool) : (s.countPreload f).store = s.store := rfl
@[simp] theorem State.countPreload_port (f : Bool) : (s.countPreload f).port = s.port := rfl
@[simp] theorem State.countPreload_fill (f : Bool) : (s.countPreload f).fill = s.fill := rfl
@[simp] theorem State.countPreload_write (f : Bool) : (s.countPreload f).write = s.write := rfl
@[simp] theorem State.countPreload_ctl (f : Bool) : (s.countPreload f).ctl = s.ctl := rfl
@[simp] theorem State.countPreload_mgmt (f : Bool) : (s.countPreload f).mgmt = s.mgmt := rfl
@[simp] theorem State.countPreload_events (f : Bool) : (s.countPreload f).events = s.events := rfl

/-! ### State.enterPreload -/

@[simp] theorem State.enterPreload_pending : s.enterPreload.pending = s.pending := rfl
@[simp] theorem State.enterPreload_outputs : s.enterPreload.outputs = s.outputs := rfl
@[simp] theorem State.enterPreload_pins : s.enterPreload.pins = s.pins := rfl
@[simp] theorem State.enterPreload_map : s.enterPreload.map = s.map := rfl
@[simp] theorem State.enterPreload_store : s.enterPreload.store = s.store := rfl
@[simp] theorem State.enterPreload_port : s.enterPreload.port = s.port := rfl
@[simp] theorem State.enterPreload_fill : s.enterPreload.fill = s.fill := rfl
@[simp] theorem State.enterPreload_write : s.enterPreload.write = s.write := rfl
@[simp] theorem State.enterPreload_ctl : s.enterPreload.ctl = s.ctl := rfl
@[simp] theorem State.enterPreload_mgmt : s.enterPreload.mgmt = s.mgmt := rfl
@[simp] theorem State.enterPreload_events : s.enterPreload.events = s.events := rfl

/-! ### State.enterMap -/

@[simp] theorem State.enterMap_pending : s.enterMap.pending = s.pending := rfl
@[simp] theorem State.enterMap_outputs : s.enterMap.outputs = s.outputs := rfl
@[simp] theorem State.enterMap_pins : s.enterMap.pins = s.pins := rfl
@[simp] theorem State.enterMap_map : s.enterMap.map = s.map := rfl
@[simp] theorem State.enterMap_store : s.enterMap.store = s.store := rfl
@[simp] theorem State.enterMap_port : s.enterMap.port = s.port := rfl
@[simp] theorem State.enterMap_fill : s.enterMap.fill = s.fill := rfl
@[simp] theorem State.enterMap_write : s.enterMap.write = s.write := rfl
@[simp] theorem State.enterMap_ctl : s.enterMap.ctl = s.ctl := rfl
@[simp] theorem State.enterMap_mgmt : s.enterMap.mgmt = s.mgmt := rfl
@[simp] theorem State.enterMap_events : s.enterMap.events = s.events := rfl

/-! ### State.countEntry -/

@[simp] theorem State.countEntry_pending : s.countEntry.pending = s.pending := rfl
@[simp] theorem State.countEntry_outputs : s.countEntry.outputs = s.outputs := rfl
@[simp] theorem State.countEntry_pins : s.countEntry.pins = s.pins := rfl
@[simp] theorem State.countEntry_map : s.countEntry.map = s.map := rfl
@[simp] theorem State.countEntry_store : s.countEntry.store = s.store := rfl
@[simp] theorem State.countEntry_port : s.countEntry.port = s.port := rfl
@[simp] theorem State.countEntry_fill : s.countEntry.fill = s.fill := rfl
@[simp] theorem State.countEntry_write : s.countEntry.write = s.write := rfl
@[simp] theorem State.countEntry_ctl : s.countEntry.ctl = s.ctl := rfl
@[simp] theorem State.countEntry_mgmt : s.countEntry.mgmt = s.mgmt := rfl
@[simp] theorem State.countEntry_events : s.countEntry.events = s.events := rfl

/-! ### State.resetBlocks -/

@[simp] theorem State.resetBlocks_pending (l : Option (SegId × FillOutcome)) (n : Nat) : (s.resetBlocks l n).pending = s.pending := rfl
@[simp] theorem State.resetBlocks_outputs (l : Option (SegId × FillOutcome)) (n : Nat) : (s.resetBlocks l n).outputs = s.outputs := rfl
@[simp] theorem State.resetBlocks_pins (l : Option (SegId × FillOutcome)) (n : Nat) : (s.resetBlocks l n).pins = s.pins := rfl
@[simp] theorem State.resetBlocks_mgmt (l : Option (SegId × FillOutcome)) (n : Nat) : (s.resetBlocks l n).mgmt = s.mgmt := rfl

/-! ### State.beginResetPoll -/

@[simp] theorem State.beginResetPoll_pending : s.beginResetPoll.pending = s.pending := rfl
@[simp] theorem State.beginResetPoll_pins : s.beginResetPoll.pins = s.pins := rfl
@[simp] theorem State.beginResetPoll_map : s.beginResetPoll.map = s.map := rfl
@[simp] theorem State.beginResetPoll_store : s.beginResetPoll.store = s.store := rfl
@[simp] theorem State.beginResetPoll_port : s.beginResetPoll.port = s.port := rfl
@[simp] theorem State.beginResetPoll_fill : s.beginResetPoll.fill = s.fill := rfl
@[simp] theorem State.beginResetPoll_write : s.beginResetPoll.write = s.write := rfl
@[simp] theorem State.beginResetPoll_startup : s.beginResetPoll.startup = s.startup := rfl
@[simp] theorem State.beginResetPoll_mgmt : s.beginResetPoll.mgmt = s.mgmt := rfl
@[simp] theorem State.beginResetPoll_events : s.beginResetPoll.events = s.events := rfl

/-! ### What the updates write -/

@[simp] theorem State.post_events (e : Event) : (s.post e).events = s.events.post e := rfl
@[simp] theorem State.postAll_events (es : List Event) : (s.postAll es).events = s.events.postAll es := rfl
@[simp] theorem State.emit_outputs (o : Output) : (s.emit o).outputs = s.outputs ++ [o] := rfl
@[simp] theorem State.emitAll_outputs (os : List Output) : (s.emitAll os).outputs = s.outputs ++ os := rfl
@[simp] theorem State.errorHeld_port (i : SegId) : (s.errorHeld i).port = s.port.dropHeld i := rfl
@[simp] theorem State.errorHeld_store (i : SegId) :
    (s.errorHeld i).store = s.store.update i fun r => { r with held := 0 } := rfl
@[simp] theorem State.errorHeld_outputs (i : SegId) :
    (s.errorHeld i).outputs = s.outputs ++ (s.port.heldFor i).map fun h => .errorTag h.tag := rfl
@[simp] theorem State.replayHeld_port (i : SegId) : (s.replayHeld i).port = s.port.dropHeld i := rfl
@[simp] theorem State.setLooked_port (p : Option Looked) :
    (s.setLooked p).port = { s.port with looked := p } := rfl
@[simp] theorem State.beginTx_ctl (op : TxOp) :
    (s.beginTx op).ctl = { s.ctl with tx := some ⟨op, s.ctl.divider⟩ } := rfl
@[simp] theorem State.beginTx_outputs (op : TxOp) :
    (s.beginTx op).outputs = s.outputs ++ [.begins ⟨op, s.ctl.divider⟩] := rfl
@[simp] theorem State.freeLink_ctl : s.freeLink.ctl = { s.ctl with tx := none, holder := .none } := rfl
@[simp] theorem State.respond_mgmt (b : BufId) (st : Status) (p : List Byte) :
    (s.respond b st p).mgmt = s.mgmt.respond b st p := rfl
@[simp] theorem State.enqueueFill_fill (i : SegId) :
    (s.enqueueFill i).fill = { s.fill with queue := s.fill.queue ++ [i] } := rfl
@[simp] theorem State.enqueueFill_store (i : SegId) :
    (s.enqueueFill i).store = s.store.update i fun r => { r with state := .queued } := rfl
@[simp] theorem State.endFill_fill (i : SegId) (o : FillOutcome) :
    (s.endFill i o).fill = { s.fill with engine := .idle, lastEnd := some (i, o) } := rfl
@[simp] theorem State.setEngine_fill (e : Engine) : (s.setEngine e).fill = { s.fill with engine := e } := rfl
@[simp] theorem State.withdrawChunk_ctl : s.withdrawChunk.ctl = s.ctl.withdrawFill := rfl
@[simp] theorem State.setStage_startup (g : Stage) :
    (s.setStage g).startup = { s.startup with stage := g } := rfl

@[simp] theorem State.countEntry_startup :
    s.countEntry.startup = { s.startup with written := s.startup.written + 1 } := rfl
@[simp] theorem State.countPreload_startup (f : Bool) : (s.countPreload f).startup = { s.startup with
    position := s.startup.position + 1
    failures := s.startup.failures + if f then 1 else 0 } := rfl

/-! ### The segment table -/

variable (st : Store)

@[simp] theorem Store.setSeg_free (i : SegId) (r : Option SegRecord) : (st.setSeg i r).free = st.free := rfl
@[simp] theorem Store.setSeg_sram (i : SegId) (r : Option SegRecord) : (st.setSeg i r).sram = st.sram := rfl
@[simp] theorem Store.setSeg_residence (i : SegId) (r : Option SegRecord) :
    (st.setSeg i r).residence = st.residence := rfl
@[simp] theorem Store.update_free (i : SegId) (f : SegRecord → SegRecord) : (st.update i f).free = st.free := rfl
@[simp] theorem Store.update_sram (i : SegId) (f : SegRecord → SegRecord) : (st.update i f).sram = st.sram := rfl
@[simp] theorem Store.update_residence (i : SegId) (f : SegRecord → SegRecord) :
    (st.update i f).residence = st.residence := rfl
@[simp] theorem Store.touch_free (i : SegId) : (st.touch i).free = st.free := rfl
@[simp] theorem Store.touch_sram (i : SegId) : (st.touch i).sram = st.sram := rfl
@[simp] theorem Store.touch_seg (i j : SegId) : (st.touch i).seg j = st.seg j := rfl
@[simp] theorem Store.leaveResidence_free (i : SegId) : (st.leaveResidence i).free = st.free := rfl
@[simp] theorem Store.leaveResidence_sram (i : SegId) : (st.leaveResidence i).sram = st.sram := rfl
@[simp] theorem Store.leaveResidence_seg (i j : SegId) : (st.leaveResidence i).seg j = st.seg j := rfl
@[simp] theorem Store.freeBlocks_free (i : SegId) : (st.freeBlocks i).free = st.free ++ st.blocksOf i := rfl
@[simp] theorem Store.freeBlocks_sram (i : SegId) : (st.freeBlocks i).sram = st.sram := rfl
@[simp] theorem Store.freeBlocks_residence (i : SegId) : (st.freeBlocks i).residence = st.residence := rfl

/-- Reading a record after one has been replaced. -/
theorem Store.seg_setSeg (i j : SegId) (r : Option SegRecord) :
    (st.setSeg i r).seg j = if j = i then r else st.seg j := by
  unfold Store.seg Store.setSeg
  by_cases h : j = i
  · subst h; simp
  · have : (i : Nat) ≠ j := fun e => h (Fin.ext e.symm)
    simp [h, this]

@[simp] theorem Store.seg_setSeg_same (i : SegId) (r : Option SegRecord) : (st.setSeg i r).seg i = r := by
  simp [Store.seg_setSeg]

/-- Reading a record after one has been changed. -/
theorem Store.seg_update (i j : SegId) (f : SegRecord → SegRecord) :
    (st.update i f).seg j = if j = i then (st.seg i).map f else st.seg j := by
  simp [Store.update, Store.seg_setSeg]

@[simp] theorem Store.seg_update_same (i : SegId) (f : SegRecord → SegRecord) :
    (st.update i f).seg i = (st.seg i).map f := by simp [Store.seg_update]

/-- Reading a record after a segment's blocks have been freed. -/
theorem Store.seg_freeBlocks (i j : SegId) :
    (st.freeBlocks i).seg j =
      if j = i then (st.seg i).map fun r => { r with blocks := [] } else st.seg j := by
  simp [Store.freeBlocks, Store.seg_update]; rfl

/-! ### Command buffers -/

@[simp] theorem Mgmt.buf_setBuf_same (m : Mgmt) (b : BufId) (x : CmdBuffer) : (m.setBuf b x).buf b = x := by
  cases b <;> rfl

@[simp] theorem Mgmt.buf_setBuf_other (m : Mgmt) (b : BufId) (x : CmdBuffer) :
    (m.setBuf b x).buf b.other = m.buf b.other := by cases b <;> rfl

@[simp] theorem BufId.other_other (b : BufId) : b.other.other = b := by cases b <;> rfl

end Sys2Proof.Machine
end

