-- ==== Sys2Proof/Laws/Ops.lean ====
section
/-! SUPPORT. One lemma per shared operation, saying once what it can do. -/

namespace Sys2Proof.Machine

/-! ### Overlay memory -/

theorem Memory.wf_nil : Memory.wf [] := ⟨List.Pairwise.nil, by simp⟩

theorem Memory.wf_tail {c : Host.Cell} {m : List Host.Cell} (h : Memory.wf (c :: m)) : Memory.wf m :=
  ⟨(List.pairwise_cons.mp h.1).2, fun d hd => h.2 d (List.mem_cons_of_mem c hd)⟩

/-- A key below every listed key reads as unlisted. -/
theorem Memory.read_below (m : List Host.Cell) (k : Nat) (h : ∀ c ∈ m, k < c.1) : Memory.read m k = 0 := by
  induction m with
  | nil => rfl
  | cons c m ih =>
    have hc := h c (by simp)
    simp only [Memory.read]
    rw [if_neg (by omega)]
    exact ih fun d hd => h d (List.mem_cons_of_mem c hd)

/-- Every key of a memory after a write is the key written or was listed before. -/
theorem Memory.mem_write {m : List Host.Cell} {k : Nat} {v : Byte} {c : Host.Cell}
    (h : c ∈ Memory.write m k v) : (c = (k, v) ∧ v ≠ 0) ∨ c ∈ m := by
  induction m with
  | nil =>
    simp only [Memory.write] at h
    split at h <;> simp_all
  | cons d m ih =>
    simp only [Memory.write] at h
    split at h
    · split at h
      · exact .inr h
      · rcases List.mem_cons.mp h with h | h
        · exact .inl ⟨h, ‹_›⟩
        · exact .inr h
    · split at h
      · split at h
        · exact .inr (List.mem_cons_of_mem d h)
        · rcases List.mem_cons.mp h with h | h
          · exact .inl ⟨h, ‹_›⟩
          · exact .inr (List.mem_cons_of_mem d h)
      · rcases List.mem_cons.mp h with h | h
        · exact .inr (by simp [h])
        · exact (ih h).imp_right (List.mem_cons_of_mem d)

/-- A write keeps the canonical form. -/
theorem Memory.write_wf {m : List Host.Cell} (h : Memory.wf m) (k : Nat) (v : Byte) :
    Memory.wf (Memory.write m k v) := by
  induction m with
  | nil =>
    simp only [Memory.write]
    split
    · exact Memory.wf_nil
    · exact ⟨List.pairwise_singleton _ _, by simpa using ‹_›⟩
  | cons c m ih =>
    have ht := Memory.wf_tail h
    have hc := (List.pairwise_cons.mp h.1).1
    simp only [Memory.write]
    split
    · split
      · exact h
      · refine ⟨List.pairwise_cons.mpr ⟨?_, h.1⟩, ?_⟩
        · intro d hd
          rcases List.mem_cons.mp hd with rfl | hd
          · assumption
          · exact Nat.lt_trans ‹_› (hc d hd)
        · intro d hd
          rcases List.mem_cons.mp hd with rfl | hd
          · assumption
          · exact h.2 d hd
    · split
      · split
        · exact ht
        · refine ⟨List.pairwise_cons.mpr ⟨?_, ht.1⟩, ?_⟩
          · intro d hd
            have := hc d hd
            show k < d.1; omega
          · intro d hd
            rcases List.mem_cons.mp hd with rfl | hd
            · assumption
            · exact ht.2 d hd
      · refine ⟨List.pairwise_cons.mpr ⟨?_, (ih ht).1⟩, ?_⟩
        · intro d hd
          rcases Memory.mem_write hd with ⟨rfl, _⟩ | hd
          · show c.1 < k; omega
          · exact hc d hd
        · intro d hd
          rcases List.mem_cons.mp hd with rfl | hd
          · exact h.2 d (by simp)
          · exact (ih ht).2 d hd

/-- A read after a write: the byte written at its key, every other key as before. -/
theorem Memory.read_write {m : List Host.Cell} (h : Memory.wf m) (k k' : Nat) (v : Byte) :
    Memory.read (Memory.write m k v) k' = if k' = k then v else Memory.read m k' := by
  induction m with
  | nil =>
    simp only [Memory.write]
    by_cases hv : v = 0
    · rw [if_pos hv, hv]; simp [Memory.read]
    · rw [if_neg hv]; simp [Memory.read, eq_comm]
  | cons c m ih =>
    have ht := Memory.wf_tail h
    have hc := (List.pairwise_cons.mp h.1).1
    have low : ∀ j, j ≤ c.1 → Memory.read m j = 0 := fun j hj =>
      Memory.read_below m j fun d hd => Nat.lt_of_le_of_lt hj (hc d hd)
    simp only [Memory.write]
    split
    · split
      · by_cases e : k' = k
        · subst e
          simp only [Memory.read]
          rw [if_neg (by omega), low k' (by omega)]; simp_all
        · simp [e]
      · by_cases e : k' = k
        · simp [Memory.read, e]
        · simp [Memory.read, e, Ne.symm e]
    · split
      · split
        · by_cases e : k' = k
          · rw [low k' (by omega)]; simp_all
          · have : c.1 ≠ k' := by omega
            simp [Memory.read, e, this]
        · by_cases e : k' = k
          · simp [Memory.read, e]
          · have : c.1 ≠ k' := by omega
            simp [Memory.read, e, Ne.symm e, this]
      · simp only [Memory.read, ih ht]
        by_cases e : k' = k
        · have : c.1 ≠ k := by omega
          simp [e, this]
        · simp [e]

/-- Bytes stored into a segment's blocks keep the canonical form. -/
theorem overlayStore_wf (blocks : List Block) (bs : List Byte) (o : Nat) {m : List Host.Cell}
    (h : Memory.wf m) : Memory.wf (overlayStore blocks bs o m) := by
  induction bs generalizing o m with
  | nil => exact h
  | cons b bs ih =>
    simp only [overlayStore]
    apply ih
    split
    · exact Memory.write_wf h _ _
    · exact h

/-- Bytes stored into a segment's blocks leave every other key as it was. -/
theorem overlayStore_read (blocks : List Block) (bs : List Byte) (o : Nat) {m : List Host.Cell}
    (h : Memory.wf m) (k : Nat) (hk : ¬ KeysOf blocks o bs.length k) :
    Memory.read (overlayStore blocks bs o m) k = Memory.read m k := by
  induction bs generalizing o m with
  | nil => rfl
  | cons b bs ih =>
    have h0 : blockKey blocks o ≠ some k := fun e => hk ⟨0, by simp, by simpa using e⟩
    have hr : ¬ KeysOf blocks (o + 1) bs.length k := fun ⟨j, hj, e⟩ =>
      hk ⟨j + 1, by simpa using hj, by rw [← e]; congr 1; omega⟩
    simp only [overlayStore]
    cases e : blockKey blocks o with
    | none => exact ih (o + 1) h hr
    | some k0 =>
      rw [ih (o + 1) (Memory.write_wf h k0 b) hr, Memory.read_write h]
      rw [if_neg]
      rintro rfl
      exact h0 e

/-- The memory of the part right after power-on is in canonical form. -/
theorem Memory.reset_wf : MemoryLaw State.reset := Memory.wf_nil

/-! ### The event queue -/

/-- A post stores the event or counts it, and advances the counter (R175). -/
theorem EventQueue.post_spec (q : EventQueue) (e : Event) :
    (q.post e).seq = q.seq + 1 ∧
    ((q.lost = 0 ∧ q.records.length < 15 ∧ (q.post e).records = q.records ++ [⟨e, q.seq⟩] ∧
        (q.post e).lost = 0) ∨
      (¬ (q.lost = 0 ∧ q.records.length < 15) ∧ (q.post e).records = q.records ∧
        (q.post e).lost = min 255 (q.lost + 1))) := by
  unfold EventQueue.post
  by_cases h : q.lost = 0 ∧ q.records.length < Config.eventCapacity
  · rw [if_pos h]; exact ⟨rfl, .inl ⟨h.1, h.2, rfl, rfl⟩⟩
  · rw [if_neg h]; exact ⟨rfl, .inr ⟨h, rfl, rfl⟩⟩

/-! ### Allocation -/

/-- NO_SPACE exactly when the reachable count is too low (R37). -/
theorem Store.allocate_none (st : Store) (n : Nat) (i : SegId) :
    st.allocate n i = none ↔ st.reachable < n := by
  unfold Store.allocate
  split <;> simp_all

/-- What a granted allocation answers (R37). -/
theorem Store.allocate_some {st st' : Store} {n : Nat} {i : SegId} {bs : List Block} {evs : List Event}
    (h : st.allocate n i = some (bs, st', evs)) :
    n ≤ st.reachable ∧ ∃ st1, Store.evictUntil n i st.candidates st = (st1, evs) ∧
      bs = st1.free.take n ∧ st' = { st1 with free := st1.free.drop n } := by
  unfold Store.allocate at h
  split at h
  · simp only [Option.some.injEq, Prod.mk.injEq] at h
    obtain ⟨h1, h2, h3⟩ := h
    exact ⟨‹_›, _, Prod.ext rfl h3, h1.symm, h2.symm⟩
  · cases h

/-- With enough blocks free nothing is evicted (R37 step 1). -/
theorem Store.evictUntil_enough (n : Nat) (i : SegId) (cs : List SegId) (st : Store)
    (h : n ≤ st.free.length) : Store.evictUntil n i cs st = (st, []) := by
  cases cs <;> simp [Store.evictUntil, h]

/-- An eviction moves the segment's blocks to the free-list tail (R38). -/
theorem Store.evict_free (st : Store) (i : SegId) : (st.evict i).free = st.free ++ st.blocksOf i := rfl

/-- An eviction makes the segment ABSENT and empties its block list; other records keep (R38). -/
theorem Store.evict_seg (st : Store) (i j : SegId) :
    (st.evict i).seg j =
      if j = i then (st.seg i).map fun r => { r with blocks := [], state := .absent } else st.seg j := by
  by_cases h : j = i
  · subst h; simp [Store.evict, Store.seg_freeBlocks]; rfl
  · simp [Store.evict, Store.seg_update, Store.seg_freeBlocks, h]

/-- Evictions leave overlay memory as it was. -/
@[simp] theorem Store.evictUntil_sram (n : Nat) (i : SegId) (cs : List SegId) (st : Store) :
    (Store.evictUntil n i cs st).1.sram = st.sram := by
  induction cs generalizing st with
  | nil => rfl
  | cons c cs ih =>
    simp only [Store.evictUntil]
    split
    · rfl
    · exact (ih (st.evict c)).trans rfl

/-! ### Commands and responses -/

/-- What a handed-over command stands for: the executor BUSY with a buffer EXECUTING a frame of that code. -/
theorem State.handed_spec {s : State} {code : Byte} {b : BufId} {p : List Byte}
    (h : s.handed code = some (b, p)) :
    s.mgmt.executor = .busy b .handed ∧ ∃ q, s.mgmt.buf b = .executing ⟨code, p⟩ q := by
  unfold State.handed at h
  split at h
  · split at h
    · split at h
      · rename_i f q hf hc
        obtain ⟨c, pl⟩ := f
        simp only [Option.some.injEq, Prod.mk.injEq] at h
        obtain ⟨rfl, rfl⟩ := h
        exact ⟨‹_›, q, by rw [hf, ← hc]⟩
      · cases h
    · cases h
  · cases h

/-- A response placed in an EXECUTING buffer (R160). -/
theorem Mgmt.respond_executing {m : Mgmt} {b : BufId} {f : Frame} {q : BitVec 8}
    (h : m.buf b = .executing f q) (st : Status) (p : List Byte) :
    m.respond b st p =
      { m.setBuf b (.answered ⟨st, f.code, q, p⟩) with executor := .idle, scan := [] } := by
  simp [Mgmt.respond, h]

/-- A command carried out by its owner: the owner's state with the response placed (R160). -/
theorem runCommand_handed {code : Byte} {s : State} {b : BufId} {p : List Byte}
    (h : s.handed code = some (b, p)) (owner : List Byte → State → Reply) :
    runCommand code owner s =
      .next ((owner p s).state.respond b (owner p s).status (owner p s).payload) := by
  simp [runCommand, h]

/-- Without such a command nothing happens (log 2). -/
theorem runCommand_none {code : Byte} {s : State} (h : s.handed code = none)
    (owner : List Byte → State → Reply) : runCommand code owner s = .next s := by
  simp [runCommand, h]

/-- A placed response over an owner that leaves the management link alone. -/
theorem State.respond_answered {s t : State} {code : Byte} {b : BufId} {p : List Byte}
    (h : s.handed code = some (b, p)) (hm : t.mgmt = s.mgmt) (st : Status) (pl : List Byte) :
    Answered b st pl s (t.respond b st pl) := by
  obtain ⟨-, q, hq⟩ := State.handed_spec h
  refine ⟨⟨code, p⟩, q, hq, ?_⟩
  rw [State.respond_mgmt, hm, Mgmt.respond_executing hq]

/-! ### Data bytes of a write transfer -/

/-- The one RECEIVING buffer and its bytes (R158). -/
theorem Mgmt.receivingBuf_eq {m : Mgmt} {b : BufId} {bytes : List Byte} (h : m.buf b = .receiving bytes)
    (ho : ∀ x, m.buf b.other ≠ .receiving x) : m.receivingBuf = some (b, bytes) := by
  cases b <;> simp only [Mgmt.buf, BufId.other] at h ho <;> unfold Mgmt.receivingBuf <;> split <;> simp_all

theorem Mgmt.receivingBuf_none {m : Mgmt} (h : ∀ b x, m.buf b ≠ .receiving x) : m.receivingBuf = none := by
  unfold Mgmt.receivingBuf
  split
  · exact absurd ‹_› (h .A _)
  · exact absurd ‹_› (h .B _)
  · rfl

/-- With no buffer RECEIVING every data byte is refused, where a transfer the target takes no byte of is on the
bus, or ignored (R155, R159). -/
theorem receiveBytes_none (data : List Byte) (s : State) (h : ∀ b x, s.mgmt.buf b ≠ .receiving x) :
    data.foldl receiveByte s = { s with
      outputs := s.outputs ++ if s.mgmt.refusing then data.map fun _ => .dataAck false else [] } := by
  induction data generalizing s with
  | nil => simp
  | cons d ds ih =>
    rw [List.foldl_cons, receiveByte, Mgmt.receivingBuf_none h]
    by_cases hr : s.mgmt.refusing = true
    · rw [show (if s.mgmt.refusing then s.emit (.dataAck false) else s) = s.emit (.dataAck false) from if_pos hr,
        ih (s.emit (.dataAck false)) h]
      simp [State.emit, hr]
    · rw [show (if s.mgmt.refusing then s.emit (.dataAck false) else s) = s from if_neg hr, ih s h]
      simp [hr]

/-- What data bytes leave alone (R155). -/
theorem receiveByte_frame (s : State) (b : Byte) : SameBut [.outputs, .mgmt] s (receiveByte s b) := by
  unfold receiveByte
  intro p hp
  split
  · split <;> cases p <;> simp_all [Part.same]
  · split <;> cases p <;> simp_all [Part.same]

theorem SameBut.trans {ps : List Part} {s t u : State} (h : SameBut ps s t) (h' : SameBut ps t u) :
    SameBut ps s u := by
  intro p hp
  have h1 := h p hp; have h2 := h' p hp
  cases p <;> exact h2.trans h1

theorem receiveBytes_frame (data : List Byte) (s : State) :
    SameBut [.outputs, .mgmt] s (data.foldl receiveByte s) := by
  induction data generalizing s with
  | nil => intro p _; cases p <;> rfl
  | cons d ds ih => exact (receiveByte_frame s d).trans (ih _)

/-! ### Catalog and boot record -/

/-- The strapped memory size rests on the pins alone. -/
theorem State.memSize_congr {s t : State} (h : t.pins = s.pins) : t.memSize = s.memSize := by
  unfold State.memSize; rw [h]

theorem State.bootAddress_congr {s t : State} (h : t.pins = s.pins) : t.bootAddress = s.bootAddress := by
  unfold State.bootAddress; rw [State.memSize_congr h]

theorem State.bootLen_congr {s t : State} (h : t.pins = s.pins) (r : BootRead) (ahead : List Byte) :
    t.bootLen r ahead = s.bootLen r ahead := by
  unfold State.bootLen; rw [State.bootAddress_congr h]

/-- The size in bytes is the size in MiB that STATUS shows (10.4). -/
theorem State.memSize_eq (s : State) : s.memSize = memoryMiB s.pins.sz * 1048576 := by
  unfold State.memSize memoryMiB
  split
  · rw [Nat.pow_add, Nat.mul_comm]
  · rfl

/-- Every strapped size is a whole number of windows, and at least 1 MiB. -/
theorem State.memSize_bounds (s : State) : 1048576 ≤ s.memSize ∧ s.memSize % 32 = 0 := by
  have key : ∀ n : Nat, 1 ≤ n → 1048576 ≤ n * 1048576 ∧ (n * 1048576) % 32 = 0 := fun n h =>
    ⟨Nat.le_mul_of_pos_left _ h, by rw [Nat.mul_mod]; simp⟩
  rw [State.memSize_eq]
  apply key
  unfold memoryMiB
  split
  · exact Nat.one_le_two_pow
  · decide

/-- Every descriptor applied is counted as declared or as skipped (R141). -/
theorem applyDescriptor_count (acc : State × Nat × Nat) (bs : List Byte) :
    (applyDescriptor acc bs).2.1 + (applyDescriptor acc bs).2.2 = acc.2.1 + acc.2.2 + 1 := by
  obtain ⟨s, m, k⟩ := acc
  simp only [applyDescriptor]
  split
  · simp; omega
  · split
    · simp; omega
    · split <;> simp <;> omega

theorem applyDescriptors_count (ds : List (List Byte)) (acc : State × Nat × Nat) :
    (ds.foldl applyDescriptor acc).2.1 + (ds.foldl applyDescriptor acc).2.2 =
      acc.2.1 + acc.2.2 + ds.length := by
  induction ds generalizing acc with
  | nil => rfl
  | cons d ds ih => rw [List.foldl_cons, ih, applyDescriptor_count, List.length_cons]; omega

/-- An application changes the store and posts events, nothing else (R141). -/
theorem applyDescriptor_frame (acc : State × Nat × Nat) (bs : List Byte) :
    SameBut [.store, .events] acc.1 (applyDescriptor acc bs).1 := by
  obtain ⟨s, m, k⟩ := acc
  intro p hp
  simp only [applyDescriptor]
  split
  · cases p <;> simp_all [Part.same, State.post]
  · split
    · cases p <;> simp_all [Part.same, State.post]
    · split <;> cases p <;> simp_all [Part.same, State.post]

theorem applyDescriptors_frame (ds : List (List Byte)) (acc : State × Nat × Nat) :
    SameBut [.store, .events] acc.1 (ds.foldl applyDescriptor acc).1 := by
  induction ds generalizing acc with
  | nil => intro p _; cases p <;> rfl
  | cons d ds ih => exact (applyDescriptor_frame acc d).trans (ih _)

/-- One descriptor of an application (R141). -/
theorem applyNext_cons {s : State} {a m k : Nat} {d : List Byte} {ds : List (List Byte)}
    (h : s.startup.catalog = some ⟨a, .applying (d :: ds) m k⟩) :
    applyNext s =
      let r := applyDescriptor (s, m, k) d
      if ds = [] then catalogEnd (.ok r.2.1 r.2.2) r.1
      else { r.1 with startup := { r.1.startup with catalog := some ⟨a, .applying ds r.2.1 r.2.2⟩ } } := by
  cases ds <;> simp [applyNext, h]

/-- The next event is a descriptor's exactly where a catalog is being applied (R141, log 20). -/
theorem nextEvent_spec (s : State) :
    (∃ a l m k, s.startup.catalog = some ⟨a, .applying l m k⟩ ∧ nextEvent s = applyNext s) ∨
    ((∀ a l m k, s.startup.catalog ≠ some ⟨a, .applying l m k⟩) ∧ nextEvent s = sequencerEvent s) := by
  unfold nextEvent
  split
  · exact .inl ⟨_, _, _, _, ‹_›, rfl⟩
  all_goals exact .inr ⟨by simp [*], rfl⟩

/-- What the sequencer's next event can be (R148 to R151). -/
theorem sequencerEvent_spec (s : State) :
    (s.startup.stage = .map ∧ sequencerEvent s = mapEvent s) ∨
    (s.startup.stage = .preload ∧ sequencerEvent s = preloadEvent s) ∨
    (s.startup.stage = .commit ∧ s.startup.committed = true ∧ sequencerEvent s = endStartup s) ∨
    (s.startup.stage = .commit ∧ s.startup.committed = false ∧ sequencerEvent s = commitStartup s) ∨
    (s.startup.stage ≠ .map ∧ s.startup.stage ≠ .preload ∧ s.startup.stage ≠ .commit ∧ sequencerEvent s = s) := by
  unfold sequencerEvent
  cases h : s.startup.stage <;> cases hc : s.startup.committed <;> simp

/-- What writing an entry of the record leaves alone (R148). -/
theorem writeBootEntry_frame (s : State) (e : RawEntry) : SameBut [.map, .startup] s (writeBootEntry s e) := by
  intro p hp
  unfold writeBootEntry State.setOutcome
  cases s.map.writeEntry e <;> cases h : s.startup.outcome <;> cases p <;> simp_all [Part.same]

/-- What the commit of start-up leaves alone (R150). -/
theorem commitStartup_frame (s : State) : SameBut [.map, .startup] s (commitStartup s) := by
  intro p hp
  unfold commitStartup State.setOutcome
  cases s.startup.mapFaulted <;> cases s.map.commit s.store <;> cases h : s.startup.outcome <;> cases p <;>
    simp_all [Part.same]

/-- What the taking of the reset poll's result can be (R145). -/
theorem pollTaken_spec (ahead : List Byte) (s : State) :
    (s.startup.stage = .poll ∧ s.ctl.link = .ready ∧ pollTaken ahead s = requestBoot ahead
      { s with startup := { s.startup with stage := .record, bootRead := some ⟨[], crc16Init⟩ } }) ∨
    (s.startup.stage = .poll ∧ s.ctl.link = .stalled ∧
      pollTaken ahead s = endStartup (s.setOutcome .linkStalled)) ∨
    ((s.startup.stage ≠ .poll ∨ s.ctl.link = .busyWait) ∧ pollTaken ahead s = s) := by
  unfold pollTaken
  by_cases h : s.startup.stage = .poll
  · cases hl : s.ctl.link <;> simp [h]
  · simp [h]

/-- What the end of a preload's fill leads to (R149). -/
theorem preloadEnded_spec (failed : Bool) (taken : Nat) (s : State) :
    (s.startup.stage = .preload ∧
      preloadEnded failed taken s = goOn taken (s.countPreload failed).enterPreload) ∨
    (s.startup.stage ≠ .preload ∧ preloadEnded failed taken s = s) := by
  unfold preloadEnded
  by_cases h : s.startup.stage = .preload <;> simp [h]

/-- A number of events, then another (log 20). -/
theorem goOn_add (m n : Nat) (s : State) : goOn (m + n) s = goOn n (goOn m s) := by
  induction m generalizing s with
  | zero => simp [goOn]
  | succ m ih => rw [Nat.succ_add]; exact ih _

/-- Where no event is next, any number of them changes nothing (log 2). -/
theorem goOn_idle {s : State} (h : nextEvent s = s) (n : Nat) : goOn n s = s := by
  induction n with
  | zero => rfl
  | succ n ih => rw [goOn, h, ih]

/-- What a boot-record request does (R146). Equal states are rewritten here, never unfolded: the kernel would count
out `memSize - 4096`. -/
theorem requestBoot_eq {s : State} {r : BootRead} (h : s.startup.bootRead = some r) (ahead : List Byte) :
    requestBoot ahead s = { s with ctl :=
      (s.ctl.arrive s.memSize .bootRecord (s.bootAddress + r.bytes.length) (s.bootLen r ahead)).2 } := by
  unfold requestBoot; rw [h]

/-- Only a boot-record READ is checked against the record's end (log 7). -/
theorem State.readFits_other {s : State} {q : LoaderRequest} {rest : List LoaderRequest}
    (h : s.ctl.loader = q :: rest) (hq : q.client ≠ .bootRecord) (data : List Byte) : s.readFits data = true := by
  unfold State.readFits
  rw [h]
  split <;> simp_all

theorem State.readFits_boot {s : State} {q : LoaderRequest} {rest : List LoaderRequest} {r : BootRead}
    (hh : s.ctl.holder = .l) (h : s.ctl.loader = q :: rest) (hr : s.startup.bootRead = some r)
    (hq : q.client = .bootRecord) (data : List Byte) :
    s.readFits data = decide (data.length = s.bootLen r data) := by
  simp [State.readFits, hh, h, hr, hq]

/-! ### The loader -/

/-- A request arriving at the loader (R123). -/
theorem Controller.arrive_spec (c : Controller) (size : Nat) (r : Requester) (a n : Nat) :
    (size < a + n ∧ c.arrive size r a n = (.range, c)) ∨
    (a + n ≤ size ∧ c.link = .stalled ∧ c.arrive size r a n = (.stalled, c)) ∨
    (a + n ≤ size ∧ c.link ≠ .stalled ∧
      c.arrive size r a n = (.queued, { c with loader := c.loader ++ [⟨r, a, n, false, false⟩] })) := by
  unfold Controller.arrive
  by_cases h : size < a + n
  · exact .inl ⟨h, by simp [h]⟩
  · by_cases h2 : c.link = .stalled
    · exact .inr (.inl ⟨by omega, h2, by simp [h, h2]⟩)
    · exact .inr (.inr ⟨by omega, h2, by simp [h, h2]⟩)

/-- An arrival changes nothing of the controller but its loader. -/
theorem Controller.arrive_loader (c : Controller) (size : Nat) (r : Requester) (a n : Nat) :
    (c.arrive size r a n).2 = { c with loader := (c.arrive size r a n).2.loader } := by
  rcases c.arrive_spec size r a n with ⟨-, h⟩ | ⟨-, -, h⟩ | ⟨-, -, h⟩ <;> rw [h]

/-! ### The ends of a fill -/

/-- What a failing fill leaves alone (R96). -/
theorem failFill_frame (i : SegId) (reason : FailReason) (s : State) :
    SameBut [.store, .port, .outputs, .fill, .events] s (failFill i reason s) := by
  intro p hp; cases p <;> simp_all [Part.same, failFill]

/-- What a failing fill writes (R96, R34, R70). -/
theorem failFill_spec (i : SegId) (reason : FailReason) (s : State) :
    (failFill i reason s).store =
        (s.store.failSegment i reason).update i (fun r => { r with held := 0 }) ∧
      (failFill i reason s).port = s.port.dropHeld i ∧
      (failFill i reason s).outputs = s.outputs ++ (s.port.heldFor i).map (fun h => .errorTag h.tag) ∧
      (failFill i reason s).events = s.events.post (.fillFailed i reason (s.port.heldFor i).length) ∧
      (failFill i reason s).fill =
        { s.fill with engine := .idle, lastEnd := some (i, .failed reason) } := ⟨rfl, rfl, rfl, rfl, rfl⟩

/-- What a complete fill leaves alone (R95). -/
theorem completeFill_frame (i : SegId) (origin : Origin) (s : State) :
    SameBut [.store, .port, .outputs, .fill, .events] s (completeFill i origin s) := by
  intro p hp; cases p <;> simp_all [Part.same, completeFill]

/-- What a complete fill writes (R95). -/
theorem completeFill_spec (i : SegId) (origin : Origin) (s : State) :
    (completeFill i origin s).store = s.store.verify i ∧
      (completeFill i origin s).port = s.port.dropHeld i ∧
      (completeFill i origin s).events = s.events.post (.fillDone i origin (s.port.heldFor i).length) ∧
      (completeFill i origin s).fill = { s.fill with engine := .idle, lastEnd := some (i, .done) } :=
  ⟨rfl, rfl, rfl, rfl⟩

/-! ### Presentations on the host bus -/

/-- A READ past the acceptance checks goes by its lookup (R54, R58). -/
theorem acceptRead_passed {q : ReadRequest} {s : State} (hr : s.startup.stage = .run)
    (hw : q.addr % 32 + q.len ≤ 32) (ht : q.tag ∉ s.port.tags) (onHit : Hit → State → State) :
    acceptRead q onHit s = match s.map.lookup q.addr q.len with
      | none => readDownstream q none none s
      | some h => onHit h s := by
  have h1 : s.starting = false := by simp [State.starting, hr]
  have h2 : crossesWindow q.addr q.len = false := decide_eq_false (Nat.not_lt.mpr hw)
  cases h : s.map.lookup q.addr q.len <;> simp [acceptRead, h1, h2, ht, h]

/-- A WRITE past the acceptance checks goes by its lookup (R54, R102). -/
theorem acceptWrite_passed {addr : Nat} {data : List Byte} {s : State} (hr : s.startup.stage = .run)
    (hw : addr % 32 + data.length ≤ 32) (onHit : Hit → State → State) :
    acceptWrite addr data onHit s = match s.map.lookup addr data.length with
      | none => admitWrite addr data none s
      | some h => onHit h s := by
  have h1 : s.starting = false := by simp [State.starting, hr]
  have h2 : crossesWindow addr data.length = false := decide_eq_false (Nat.not_lt.mpr hw)
  cases h : s.map.lookup addr data.length <;> simp [acceptWrite, h1, h2, h]

/-- What a part of a READ's presentation comes to (R51, R57). -/
theorem presentRead_spec (q : ReadRequest) (part : PresentPart) (s : State) :
    (part = .whole ∧ s.port.looked = none ∧ presentRead q part s = acceptRead q (routeHit q) s) ∨
    (part = .lookup ∧ s.port.looked = none ∧
      presentRead q part s = acceptRead q (fun h s => s.setLooked (some (.read q h))) s) ∨
    (∃ h, part = .enquiry ∧ s.port.looked = some (.read q h) ∧
      presentRead q part s = routeHit q h (s.setLooked none)) ∨
    presentRead q part s = s := by
  unfold presentRead
  split
  · exact .inl ⟨rfl, ‹_›, rfl⟩
  · exact .inr (.inl ⟨rfl, ‹_›, rfl⟩)
  · split
    · rename_i q' h hl he; subst he; exact .inr (.inr (.inl ⟨h, rfl, hl, rfl⟩))
    · exact .inr (.inr (.inr rfl))
  all_goals exact .inr (.inr (.inr rfl))

/-- What a part of a WRITE's presentation comes to (R51, R103). -/
theorem presentWrite_spec (addr : Nat) (data : List Byte) (part : PresentPart) (s : State) :
    (part = .whole ∧ s.port.looked = none ∧
      presentWrite addr data part s = acceptWrite addr data (routeWriteHit addr data) s) ∨
    (part = .lookup ∧ s.port.looked = none ∧
      presentWrite addr data part s = acceptWrite addr data (lookWriteHit addr data) s) ∨
    (∃ h, part = .enquiry ∧ s.port.looked = some (.write addr data h) ∧
      presentWrite addr data part s = routeWriteHit addr data h (s.setLooked none)) ∨
    presentWrite addr data part s = s := by
  unfold presentWrite
  split
  · exact .inl ⟨rfl, ‹_›, rfl⟩
  · exact .inr (.inl ⟨rfl, ‹_›, rfl⟩)
  · split
    · rename_i a d h hl he; obtain ⟨rfl, rfl⟩ := he; exact .inr (.inr (.inl ⟨h, rfl, hl, rfl⟩))
    · exact .inr (.inr (.inr rfl))
  all_goals exact .inr (.inr (.inr rfl))

/-! ### Arguments, control bytes and codes -/

/-- The window check without its configured constant (R51). -/
theorem crossesWindow_eq (addr len : Nat) : crossesWindow addr len = decide (32 < addr % 32 + len) := rfl

/-- A one-byte field is the byte. -/
theorem field_byte0 (p : List Byte) : field p 0 1 = (byteAt p 0).toNat := by
  cases p <;> simp [field, byteAt, leValue]

theorem field_byte1 (p : List Byte) : field p 1 1 = (byteAt p 1).toNat := by
  rcases p with _ | ⟨_, _ | ⟨_, _⟩⟩ <;> simp [field, byteAt, leValue]

theorem field_byte3 (p : List Byte) : field p 3 1 = (byteAt p 3).toNat := by
  rcases p with _ | ⟨_, _ | ⟨_, _ | ⟨_, _ | ⟨_, _⟩⟩⟩⟩ <;> simp [field, byteAt, leValue]

/-- The id a number names is the one of that number. -/
theorem segId?_eq_some {n : Nat} {i : SegId} : segId? n = some i ↔ n = segNum i := by
  unfold segId? segNum
  constructor
  · split
    · intro e; cases e; simp; omega
    · intro e; cases e
  · rintro rfl; simp

/-- A control byte without reserved bits is 00h or 01h (R183). -/
theorem controlOk_iff (x : Byte) : controlOk x = true ↔ x.toNat ≤ 1 := by simp [controlOk]

theorem controlBit_eq {x : Byte} (h : x.toNat ≤ 1) : controlBit x = decide (x = 1) := by
  have : x = 0 ∨ x = 1 := by
    rcases Nat.le_one_iff_eq_zero_or_eq_one.mp h with h | h
    · exact .inl (BitVec.eq_of_toNat_eq h)
    · exact .inr (BitVec.eq_of_toNat_eq h)
  rcases this with rfl | rfl <;> rfl

theorem writePolicy?_eq_some (n : Nat) (w : WritePolicy) : writePolicy? n = some w ↔ n = w.code.toNat := by
  unfold writePolicy?; split <;> cases w <;> simp [WritePolicy.code] <;> omega

theorem absencePolicy?_eq_some (n : Nat) (a : AbsencePolicy) :
    absencePolicy? n = some a ↔ n = a.code.toNat := by
  unfold absencePolicy?; split <;> cases a <;> simp [AbsencePolicy.code] <;> omega

/-! ### Reading a bank after a change -/

theorem Bank.getElem_put (bank : Bank) (i j : MapIndex) (e : Option MapEntry) :
    (bank.put i e)[j] = if j = i then e else bank[j] := by
  have h : (bank.set i.val e i.isLt)[j.val] = if i.val = j.val then e else bank[j.val] := by
    rw [Vector.getElem_set]
  simp only [Bank.put, Fin.getElem_fin]
  rw [h]
  by_cases hj : j = i
  · simp [hj]
  · rw [if_neg fun h => hj (Fin.ext h.symm), if_neg hj]

/-- R8. -/
theorem MapUnit.names_iff (m : MapUnit) (i : SegId) :
    m.names i = true ↔ ∃ (k : MapIndex) (e : MapEntry), m.active[k] = some e ∧ e.seg = i := by
  simp only [MapUnit.names, List.any_eq_true, List.mem_finRange, true_and]
  constructor
  · rintro ⟨k, hk⟩
    cases he : m.active[k] with
    | none => simp [he] at hk
    | some e => exact ⟨k, e, he, by simpa [he] using hk⟩
  · rintro ⟨k, e, he, h⟩
    exact ⟨k, by simp [he, h]⟩

/-- A command on a declared segment passes the shared checks (R41). -/
theorem withDeclared_some {p : List Byte} {s : State} {i : SegId} {r : SegRecord}
    (hp : (byteAt p 0).toNat = segNum i) (hr : s.store.seg i = some r) (k : SegId → SegRecord → Reply) :
    withDeclared p s k = k i r := by
  have h : segId? (idArg p) = some i := by rw [idArg, field_byte0, segId?_eq_some]; exact hp
  simp [withDeclared, h, hr]

end Sys2Proof.Machine
end

