-- ==== Sys2Proof/WellFormed.lean ====
section
/-! DEFINITION. Which commands can be presented: the operand ranges the spec gives them. -/

namespace Sys2Proof

/-- The operands are ones the interface can carry: a request of 1 to 32 bytes (R51), 1 to 32 bytes back
from a READ (R118), 1 to 112 events where what it led to goes on, as many as the descriptors, entries, preloads, commit
and end of a start-up (R137, R142, R150, R151), a payload of at most 72 bytes in a frame that is complete (R156), a
length byte above 72 in a bad-length discard (R156), at least one and at most nine owners read by a STATUS event
(R167). -/
def Instr.WellFormed : Instr → Prop
  | .read _ _ len => 1 ≤ len.len ∧ len.len ≤ 32
  | .write _ data => 1 ≤ data.bytes.length ∧ data.bytes.length ≤ 32
  | .readTransactionEnd (.ends bytes _ _) => 1 ≤ bytes.length ∧ bytes.length ≤ 32
  | .readTransactionEnd (.goesOn count) => 1 ≤ count ∧ count ≤ 112
  | .frameComplete _ payload _ => payload.length ≤ 72
  | .frameDiscard (.badLength len) => 72 < len.toNat
  | .status owners => 1 ≤ owners ∧ owners ≤ 9
  | .frameDiscard .earlyEnd | .pinReset _ | .pinResetRelease _ _ _ | .arbiterChoice | .writeEnableEnd
  | .writeTransactionEnd | .pollStart | .busyTimerExpiry | .pollEnd _ | .writeTransferStart _
  | .readTransfer _ _ | .executorTake | .identify | .setParam | .reset | .eventRead | .mapWrite
  | .mapClear | .mapCopy | .mapRead | .mapCommit | .segDeclare | .segRelease | .segDrop | .segPin
  | .segQuery | .segRead | .preload | .fillBegin | .fillData | .fillEnd | .fillAbort | .catalogLoad
  | .linkRecover | .linkRecoverPollEnd _ | .takeHead | .startTimerExpiry | .gapTimerExpiry => True

/-- The same check as a Bool, for tests. -/
def Instr.wellFormed : Instr → Bool
  | .read _ _ len => decide (1 ≤ len.len ∧ len.len ≤ 32)
  | .write _ data => decide (1 ≤ data.bytes.length ∧ data.bytes.length ≤ 32)
  | .readTransactionEnd (.ends bytes _ _) => decide (1 ≤ bytes.length ∧ bytes.length ≤ 32)
  | .readTransactionEnd (.goesOn count) => decide (1 ≤ count ∧ count ≤ 112)
  | .frameComplete _ payload _ => decide (payload.length ≤ 72)
  | .frameDiscard (.badLength len) => decide (72 < len.toNat)
  | .status owners => decide (1 ≤ owners ∧ owners ≤ 9)
  | .frameDiscard .earlyEnd | .pinReset _ | .pinResetRelease _ _ _ | .arbiterChoice | .writeEnableEnd
  | .writeTransactionEnd | .pollStart | .busyTimerExpiry | .pollEnd _ | .writeTransferStart _
  | .readTransfer _ _ | .executorTake | .identify | .setParam | .reset | .eventRead | .mapWrite
  | .mapClear | .mapCopy | .mapRead | .mapCommit | .segDeclare | .segRelease | .segDrop | .segPin
  | .segQuery | .segRead | .preload | .fillBegin | .fillData | .fillEnd | .fillAbort | .catalogLoad
  | .linkRecover | .linkRecoverPollEnd _ | .takeHead | .startTimerExpiry | .gapTimerExpiry => true

end Sys2Proof
end

