-- ==== Sys2Proof/Laws/PerInstr.lean ====
section
/-! SUPPORT. The per-command family `Ranges`: the operand ranges as a proposition and as a Bool agree. -/

namespace Sys2Proof.Laws.Ranges

/-- The two forms of the range check agree on a command. -/
def Statement (i : Instr) : Prop := i.WellFormed ↔ i.wellFormed = true

/-- A decidable proposition and its Bool. -/
theorem agree (p : Prop) [Decidable p] : p ↔ decide p = true := decide_eq_true_iff.symm

theorem pinReset (powerOn : Bool) : Statement (.pinReset powerOn) :=
  ⟨fun _ => rfl, fun _ => trivial⟩

theorem pinResetRelease (sz : BitVec 3) (ma : BitVec 2) (bootEn : Bool) : Statement (.pinResetRelease sz ma bootEn) :=
  ⟨fun _ => rfl, fun _ => trivial⟩

theorem read (tag : Tag) (addr : Addr) (len : ReadLength) : Statement (.read tag addr len) :=
  agree (1 ≤ len.len ∧ len.len ≤ 32)

theorem write (addr : Addr) (data : WriteData) : Statement (.write addr data) :=
  agree (1 ≤ data.bytes.length ∧ data.bytes.length ≤ 32)

theorem arbiterChoice : Statement (.arbiterChoice) :=
  ⟨fun _ => rfl, fun _ => trivial⟩

theorem readTransactionEnd (data : ReadEnd) : Statement (.readTransactionEnd data) := by
  cases data with
  | ends bytes ahead applied => exact agree (1 ≤ bytes.length ∧ bytes.length ≤ 32)
  | goesOn count => exact agree (1 ≤ count ∧ count ≤ 112)

theorem writeEnableEnd : Statement (.writeEnableEnd) :=
  ⟨fun _ => rfl, fun _ => trivial⟩

theorem writeTransactionEnd : Statement (.writeTransactionEnd) :=
  ⟨fun _ => rfl, fun _ => trivial⟩

theorem pollStart : Statement (.pollStart) :=
  ⟨fun _ => rfl, fun _ => trivial⟩

theorem busyTimerExpiry : Statement (.busyTimerExpiry) :=
  ⟨fun _ => rfl, fun _ => trivial⟩

theorem pollEnd (status : PollAnswer) : Statement (.pollEnd status) :=
  ⟨fun _ => rfl, fun _ => trivial⟩

theorem writeTransferStart (addr : WritePart) : Statement (.writeTransferStart addr) :=
  ⟨fun _ => rfl, fun _ => trivial⟩

theorem frameComplete (code : Byte) (payload : List Byte) (check : Byte) :
    Statement (.frameComplete code payload check) :=
  agree (payload.length ≤ 72)

theorem frameDiscard (cause : DiscardCause) : Statement (.frameDiscard cause) :=
  match cause with
  | .badLength len => agree (72 < len.toNat)
  | .earlyEnd => ⟨fun _ => rfl, fun _ => trivial⟩

theorem readTransfer (addr : Option (BitVec 7)) (count : Nat) : Statement (.readTransfer addr count) :=
  ⟨fun _ => rfl, fun _ => trivial⟩

theorem executorTake : Statement (.executorTake) :=
  ⟨fun _ => rfl, fun _ => trivial⟩

theorem identify : Statement (.identify) :=
  ⟨fun _ => rfl, fun _ => trivial⟩

theorem status (owners : Nat) : Statement (.status owners) :=
  agree (1 ≤ owners ∧ owners ≤ 9)

theorem setParam : Statement (.setParam) :=
  ⟨fun _ => rfl, fun _ => trivial⟩

theorem reset : Statement (.reset) :=
  ⟨fun _ => rfl, fun _ => trivial⟩

theorem eventRead : Statement (.eventRead) :=
  ⟨fun _ => rfl, fun _ => trivial⟩

theorem mapWrite : Statement (.mapWrite) :=
  ⟨fun _ => rfl, fun _ => trivial⟩

theorem mapClear : Statement (.mapClear) :=
  ⟨fun _ => rfl, fun _ => trivial⟩

theorem mapCopy : Statement (.mapCopy) :=
  ⟨fun _ => rfl, fun _ => trivial⟩

theorem mapRead : Statement (.mapRead) :=
  ⟨fun _ => rfl, fun _ => trivial⟩

theorem mapCommit : Statement (.mapCommit) :=
  ⟨fun _ => rfl, fun _ => trivial⟩

theorem segDeclare : Statement (.segDeclare) :=
  ⟨fun _ => rfl, fun _ => trivial⟩

theorem segRelease : Statement (.segRelease) :=
  ⟨fun _ => rfl, fun _ => trivial⟩

theorem segDrop : Statement (.segDrop) :=
  ⟨fun _ => rfl, fun _ => trivial⟩

theorem segPin : Statement (.segPin) :=
  ⟨fun _ => rfl, fun _ => trivial⟩

theorem segQuery : Statement (.segQuery) :=
  ⟨fun _ => rfl, fun _ => trivial⟩

theorem segRead : Statement (.segRead) :=
  ⟨fun _ => rfl, fun _ => trivial⟩

theorem preload : Statement (.preload) :=
  ⟨fun _ => rfl, fun _ => trivial⟩

theorem fillBegin : Statement (.fillBegin) :=
  ⟨fun _ => rfl, fun _ => trivial⟩

theorem fillData : Statement (.fillData) :=
  ⟨fun _ => rfl, fun _ => trivial⟩

theorem fillEnd : Statement (.fillEnd) :=
  ⟨fun _ => rfl, fun _ => trivial⟩

theorem fillAbort : Statement (.fillAbort) :=
  ⟨fun _ => rfl, fun _ => trivial⟩

theorem catalogLoad : Statement (.catalogLoad) :=
  ⟨fun _ => rfl, fun _ => trivial⟩

theorem linkRecover : Statement (.linkRecover) :=
  ⟨fun _ => rfl, fun _ => trivial⟩

theorem linkRecoverPollEnd (status : Byte) : Statement (.linkRecoverPollEnd status) :=
  ⟨fun _ => rfl, fun _ => trivial⟩

theorem takeHead : Statement (.takeHead) :=
  ⟨fun _ => rfl, fun _ => trivial⟩

theorem startTimerExpiry : Statement (.startTimerExpiry) :=
  ⟨fun _ => rfl, fun _ => trivial⟩

theorem gapTimerExpiry : Statement (.gapTimerExpiry) :=
  ⟨fun _ => rfl, fun _ => trivial⟩

end Sys2Proof.Laws.Ranges
end

