-- ==== Sys2Proof/Tests/Slice0.lean ====
section
/-! SUPPORT. The model's own tests, their expected results taken from the worked examples of spec/ (each names
its section), and for every statement with hypotheses a witness: a concrete state and operands that meet
them. -/

-- One test after another: each waits for the kernel, and many waiting at once exhaust the threads.
set_option Elab.async false

namespace Sys2Proof.Tests

open Sys2Proof.Machine

/-! ### Small states -/

/-- The state after a command. -/
def after (c : Instr) (s : State) : State :=
  match exec c s with
  | .next t => t
  | .fault _ => s
  | .refused _ => s

/-- A part in RUN with a 4 MiB memory (SZ = 010b), a READY and idle link and nothing declared. -/
def ready : State := { State.reset with
  pins := { inReset := false, sz := 2, ma := 0, bootEn := false }
  ctl := { Controller.held with link := .ready, holder := .none }
  startup := { Startup.reset with stage := .run, outcome := .disabled } }

/-- Buffer A EXECUTING a frame with sequence number 60, handed to its owner. -/
def withCmd (code : Byte) (payload : List Byte) (s : State) : State := { s with
  mgmt := { s.mgmt with bufA := .executing ⟨code, payload⟩ 60, executor := .busy .A .handed } }

/-- A buffer's response: status and payload. -/
def CmdBuffer.reply : CmdBuffer → Option (Status × List Byte)
  | .answered r => some (r.status, r.payload)
  | .empty | .receiving _ | .pending _ _ _ | .executing _ _ => none

/-- The response that a management command places. -/
def reply (c : Instr) (code : Byte) (payload : List Byte) (s : State) : Option (Status × List Byte) :=
  CmdBuffer.reply (after c (withCmd code payload s)).mgmt.bufA

/-- A host segment of 300 bytes, so 2 blocks, in a state without blocks. -/
def seg (g : SegState) : SegRecord := { newRecord .host 300 0x1234 false with state := g }

/-- The same, holding blocks 7 and 3. -/
def placed (g : SegState) : SegRecord := { seg g with blocks := [7, 3] }

/-- A catalog segment of 40 bytes with its image at 114000h. -/
def image (g : SegState) (blocks : List Block) : SegRecord :=
  { newRecord (.catalog 0x114000) 40 0x1234 false with state := g, blocks := blocks }

/-- Segment 5 declared. -/
def declared (r : SegRecord) (s : State) : State := { s with store := s.store.setSeg 4 (some r) }

/-- ACTIVE entry 0 covers 040000h up to 040200h and names segment 5. -/
def mapped (w : WritePolicy) (a : AbsencePolicy) (s : State) : State := { s with
  map := { s.map with active := s.map.active.put 0 (some ⟨0x40000, 0x200, 4, 0, w, a⟩) } }

/-- Both. -/
def overlaid (w : WritePolicy) (a : AbsencePolicy) (r : SegRecord) : State :=
  mapped w a (declared r ready)

/-- An engine state. -/
def engine (e : Engine) (s : State) : State := { s with fill := { s.fill with engine := e } }

/-- A transaction on the link. -/
def onLink (h : Holder) (op : TxOp) (s : State) : State :=
  { s with ctl := { s.ctl with holder := h, tx := some ⟨op, 8⟩ } }

/-- A link state. -/
def linkIs (l : LinkState) (s : State) : State := { s with ctl := { s.ctl with link := l } }

/-- A write-queue entry of two bytes at 300000h. -/
def entryA (inFlight : Bool) : WriteEntry := ⟨0x300000, [1, 2], inFlight⟩

/-- A link in BUSY_WAIT for an IN_FLIGHT head, a poll in progress. -/
def polling (expired : Bool) : State :=
  let s := onLink .w .readStatus (linkIs .busyWait ready)
  { s with
    ctl := { s.ctl with busyTimer := some 20, expired := expired }
    write := { s.write with queue := [entryA true] } }

/-- A held read of segment 5. -/
def heldRead : HeldRead := ⟨2, 0x40040, 32, 4, 64, 20⟩

/-- One read held for segment 5. -/
def holding (s : State) : State :=
  { s with port := { s.port with tags := [2], held := [heldRead], arrival := 21 } }

/-! ### Ranges of operands: ill-formed commands are refused by the check -/

theorem test_wf_read_empty : (Instr.read 0 0 ⟨0, .whole⟩).wellFormed = false := by decide
theorem test_wf_read_33 : (Instr.read 0 0 ⟨33, .whole⟩).wellFormed = false := by decide
theorem test_wf_read_32 : (Instr.read 0 0 ⟨32, .whole⟩).wellFormed = true := by decide
theorem test_wf_write_empty : (Instr.write 0 ⟨[], .whole⟩).wellFormed = false := by decide
theorem test_wf_write_33 : (Instr.write 0 ⟨List.replicate 33 0, .whole⟩).wellFormed = false := by decide
theorem test_wf_read_end : (Instr.readTransactionEnd (.ends [] [] 0)).wellFormed = false := by decide
theorem test_wf_goes_on : (Instr.readTransactionEnd (.goesOn 113)).wellFormed = false := by decide
theorem test_wf_frame : (Instr.frameComplete 2 (List.replicate 73 0) 0).wellFormed = false := by decide
theorem test_wf_discard : (Instr.frameDiscard (.badLength 72)).wellFormed = false := by decide
theorem test_wf_status : (Instr.status 0).wellFormed = false ∧ (Instr.status 10).wellFormed = false := by
  decide
theorem test_no_words : decodeTableWord 0 0 = none := rfl

/-! ### Check codes: the worked values of 00, "Check codes" -/

theorem test_crc16 :
    crc16Over crc16Init [0x31, 0x32, 0x33, 0x34, 0x35, 0x36, 0x37, 0x38, 0x39] = 0x29B1 := by
  decide +kernel
theorem test_crc8 : crc8 [0x31, 0x32, 0x33, 0x34, 0x35, 0x36, 0x37, 0x38, 0x39] = 0xF4 := by
  decide +kernel

/-! ### Resets -/

/-- R117: two queued writes are counted at an assertion of RESET_N. -/
theorem test_pinReset : (after (.pinReset false) { ready with
    write := { ready.write with queue := [entryA true, entryA false] } }).write.resetDiscard = 2 := by
  decide +kernel
/-- R170: a write transfer into the other buffer is discarded and acknowledged no further. -/
theorem test_reset_write : (after (.writeTransferStart ⟨none, [0]⟩) (after .reset
      (after (.writeTransferStart ⟨some 0x58, [2]⟩) (withCmd 0x04 [] ready)))).outputs.getLast? =
    some (.dataAck false) := by decide +kernel
/-- R144: BOOT_EN 0 ends start-up DISABLED in the reset event. -/
theorem test_pinResetRelease : (after (.pinResetRelease 2 0 false) State.reset).events.records =
    [⟨.startupDone .disabled 0 0 0, 0⟩] := by decide +kernel
/-- 8.9 step 3. -/
theorem test_reset : (after .reset { withCmd 0x04 [] ready with
      events := ⟨[⟨.eventsLost 1, 0⟩], 0, 5⟩ }).mgmt.bufA = .answered ⟨.ok, 0x04, 60, []⟩ := by
  decide +kernel

/-! ### Host reads and writes -/

/-- 1.10: a request of 041FE0h, 32 bytes, against an entry at 041000h of size 1000h hits at 0FE0h. -/
theorem test_lookup : ((Bank.invalid.put 1
      (some ⟨0x41000, 0x1000, 8, 0, .shadow, .pass⟩)).hitAt 0x41FE0 32 1) =
    some ⟨1, 8, 0xFE0, .shadow, .pass⟩ := by decide +kernel
/-- 3.9 step 1: the read parks and its segment becomes QUEUED. -/
theorem test_read_parks : (after (.read 3 0x40100 ⟨32, .whole⟩) (overlaid .discard .hold (seg .absent))).fill.queue =
    [4] := by decide +kernel
/-- 3.9 step 6: a downstream read at 500000h is refused RANGE. -/
theorem test_read_range : (after (.read 8 0x500000 ⟨8, .whole⟩) ready).events.records =
    [⟨.readFault 8 0x500000 8 .range none, 0⟩] := by decide +kernel
/-- 11.4 step 2. -/
theorem test_write_miss : (after (.write 0x300000 ⟨[1, 2], .whole⟩) ready).write.queue = [entryA false] := by
  decide +kernel
/-- 5.8 step 7. -/
theorem test_write_discard :
    ((after (.write 0x40000 ⟨[1, 2, 3, 4], .whole⟩) (overlaid .discard .hold (seg .absent))).store.seg 4).map
      (·.discards) = some 1 := by decide +kernel

/-- A presentation looked up, and the map entry and the segment gone before its enquiry. -/
def released (c : Instr) (w : WritePolicy) : State :=
  let s := after .mapCommit (withCmd 0x14 [] (after c (overlaid w .hold (seg .absent))))
  let t := after .segRelease (withCmd 0x21 [5, 0] s)
  { t with mgmt := Mgmt.reset }

/-- R103, R44 "Release first": NOT_RESIDENT under SHADOW; WACK and nothing counted under DISCARD. -/
theorem test_write_released :
    (after (.write 0x40000 ⟨[1], .enquiry⟩) (released (.write 0x40000 ⟨[1], .lookup⟩) .shadow)).events.records =
      [⟨.writeFault 0x40000 1 .notResident (some 4), 0⟩] ∧
    (after (.write 0x40000 ⟨[1], .enquiry⟩) (released (.write 0x40000 ⟨[1], .lookup⟩) .discard)).outputs =
      [.answer .wack] := by decide +kernel
/-- R57: routed as a miss. -/
theorem test_read_released : (after (.read 3 0x40100 ⟨32, .enquiry⟩)
      (released (.read 3 0x40100 ⟨32, .lookup⟩) .fault)).port.readQueue = [⟨3, 0x40100, 32, false⟩] := by
  decide +kernel
/-- R22, R52: a soft reset between the two. -/
theorem test_reset_looked : (after .reset (withCmd 0x04 [] (after (.read 3 0x40100 ⟨32, .lookup⟩)
      (overlaid .shadow .hold (seg .absent))))).outputs.head? = some (.answer .retry) := by decide +kernel

/-! ### The serial link -/

/-- A state in which clients W and L offer (11.4 step 2). -/
def twoOffers : State := { ready with
  write := { ready.write with queue := [entryA false] }
  ctl := { ready.ctl with loader := [⟨.fill, 0x114000, 32, false, false⟩] } }

/-- 11.4 step 2: test 4 grants W and the aging count becomes 1. -/
theorem test_arbiter : (after .arbiterChoice twoOffers).ctl.holder = .w ∧
    (after .arbiterChoice twoOffers).ctl.aging = 1 := by decide +kernel

/-- A downstream read on the link. -/
def reading : State :=
  let s := onLink .r (.read 0x100000 4) ready
  { s with port := { s.port with tags := [7], readQueue := [⟨7, 0x100000, 4, true⟩] } }

/-- 3.9 step 8. -/
theorem test_read_end : (after (.readTransactionEnd (.ends [1, 2, 3, 4] [] 0)) reading).outputs =
    [.data 7 [1, 2, 3, 4]] := by decide +kernel

/-- A catalog fill whose first chunk of 32 bytes is on the link. -/
def loading (withdrawn : Bool) : State :=
  let s := onLink .l (.read 0x114000 32) (declared (image .filling [9]) ready)
  engine (.loadingCatalog 4 .queue 0 0xFFFF)
    { s with ctl := { s.ctl with loader := [⟨.fill, 0x114000, 32, true, withdrawn⟩] } }

/-- R83: the next chunk runs to the declared length. -/
theorem test_chunk : (after (.readTransactionEnd (.ends (List.replicate 32 5) [] 0)) (loading false)).ctl.loader =
    [⟨.fill, 0x114020, 8, false, false⟩] := by decide +kernel

/-- A catalog of two descriptors of id 0 accepted and not yet applied. -/
def applying : State :=
  let s := withCmd 0x40 [0, 0, 0x20] ready
  { s with
    mgmt := { s.mgmt with executor := .busy .A .catalogLoad }
    startup := { s.startup with catalog := some ⟨0x200000, .applying (List.replicate 2 (List.replicate 10 0)) 0 0⟩ } }

/-- R141, R176: the read path posts between the CATALOG_CONFLICTs of two descriptors, and the response counts both
as skipped. -/
theorem test_catalog_between :
    let s := after (.readTransactionEnd (.goesOn 1)) (after (.read 3 0x1E ⟨8, .whole⟩)
      (after (.readTransactionEnd (.goesOn 1)) applying))
    s.events.records.map (·.event) = [.catalogConflict 0 .badDescriptor, .readFault 3 0x1E 8 .align none,
      .catalogConflict 0 .badDescriptor] ∧
    s.mgmt.bufA = .answered ⟨.ok, 0x40, 60, [0, 2]⟩ := by decide +kernel
/-- R140: a stall leaves an application as it is. -/
theorem test_catalog_stall : (stallCatalog applying).startup = applying.startup := by decide +kernel

/-- A write sequence at its first transaction. -/
def enabling : State :=
  let s := onLink .w .writeEnable ready
  { s with write := { s.write with queue := [entryA true] } }

theorem test_write_enable_end : (after .writeEnableEnd enabling).ctl.tx =
    some ⟨.write 0x300000 [1, 2], 8⟩ := by decide +kernel
theorem test_write_end : (after .writeTransactionEnd (after .writeEnableEnd enabling)).ctl.link =
    .busyWait := by decide +kernel
theorem test_poll_start : (after .pollStart (linkIs .busyWait ready)).ctl.tx = some ⟨.readStatus, 8⟩ := by
  decide +kernel
theorem test_busy_timer : (after .busyTimerExpiry (polling false)).ctl.expired = true := by
  decide +kernel
/-- R118: only the least significant bit of the status byte counts. -/
theorem test_poll_ready : (after (.pollEnd (.ends 0xFE [] true)) (polling false)).write.queue = [] := by decide +kernel
/-- 11.4 step 4: FILL_FAILED stands ahead of DN_STALLED with the uncertain write. -/
theorem test_poll_stall : ((after (.pollEnd (.ends 1 [] true)) { polling true with
      fill := (loading false).fill, store := (loading false).store }).events.records.map (·.event)) =
    [.fillFailed 4 .dnStalled 0, .dnStalled (some (0x300000, 2)) 0 true] := by decide +kernel

/-- A LINK_RECOVER under way. -/
def recovering : State :=
  after .linkRecover (withCmd 0x41 [] (linkIs .stalled ready))

/-- 11.4 steps 6 and 7. -/
theorem test_recover : CmdBuffer.reply (after (.linkRecoverPollEnd 1) recovering).mgmt.bufA =
    some (.stillBusy, []) ∧ (after (.linkRecoverPollEnd 0) recovering).ctl.link = .ready := by
  decide +kernel
theorem test_recover_refused : reply .linkRecover 0x41 [] ready = some (.wrongState, []) := by
  decide +kernel

/-! ### The management link -/

/-- 11.5 before step 1. -/
def idleLink : State := { ready with mgmt := { ready.mgmt with seq := 60 } }

/-- 11.5 step 1: CATALOG_LOAD(100000h) is received into A with sequence 60 and the mark names B. -/
theorem test_frame : (after (.frameComplete 0x40 [0, 0, 0x10] (crc8 [0x40, 3, 0, 0, 0x10]))
      (after (.writeTransferStart ⟨some 0x58, [0x40, 3, 0, 0, 0x10]⟩) idleLink)).mgmt =
    { idleLink.mgmt with
      bufA := .pending ⟨0x40, [0, 0, 0x10]⟩ 60 true
      mark := .B
      seq := 61
      refusing := true } := by decide +kernel
/-- R155: bytes after the check byte are not acknowledged, and the completed frame stays. -/
theorem test_after_check : (after (.writeTransferStart ⟨none, [7, 7]⟩)
      (after (.frameComplete 2 [] (crc8 [2, 0])) (after (.writeTransferStart ⟨some 0x58, [2, 0]⟩) ready))).outputs =
    [.addressAck true, .dataAck true, .dataAck true, .dataAck true, .dataAck false, .dataAck false] := by
  decide +kernel
/-- 11.5 step 3: with neither buffer EMPTY the first data byte is not acknowledged. -/
theorem test_overrun : (after (.writeTransferStart ⟨some 0x58, [2]⟩) { ready with mgmt := { ready.mgmt with
      bufA := .executing ⟨0x40, [0, 0, 0x10]⟩ 60
      bufB := .pending ⟨2, []⟩ 61 true } }).outputs = [.addressAck true, .dataAck false] := by decide +kernel
theorem test_discard : (after (.frameDiscard (.badLength 73))
      (after (.writeTransferStart ⟨some 0x58, [0x40]⟩) idleLink)).mgmt.seq = 60 := by decide +kernel
/-- 11.5 step 4. -/
theorem test_not_ready : (after (.readTransfer (some 0x58) 1) ready).outputs =
    [.addressAck true, .sent [0xA5]] := by decide +kernel
/-- 8.9 step 4: MAP_READ is refused STARTING. -/
theorem test_take_starting : CmdBuffer.reply (after .executorTake { State.reset with
      mgmt := { Mgmt.reset with bufA := .pending ⟨0x13, [0, 0]⟩ 42 true } }).mgmt.bufA =
    some (.starting, []) := by decide +kernel
theorem test_identify : (reply .identify 0x01 [] ready).map (·.2.length) = some 17 := by decide +kernel
/-- R167, 10.4: 34 bytes, the sixth stage RUN. -/
theorem test_status : (reply (.status 9) 0x02 [] ready).map (fun r => (r.2.length, r.2[4]?)) =
    some (34, some 6) := by decide +kernel
/-- R119: the legal LINK_DIVIDER values are 2, 4, 8 and 16. -/
theorem test_set_param : reply .setParam 0x03 [5, 3, 0] ready = some (.badArgument, []) ∧
    reply .setParam 0x03 [5, 16, 0] ready = some (.ok, [5, 16, 0]) := by decide +kernel

/-- 9.9 after step 3: 15 records with numbers 30 to 44, lost count 2, counter 47. -/
def overflowed : EventQueue :=
  { records := (List.range 15).map fun n => ⟨.catalogConflict 7 .exists_, BitVec.ofNat 8 (30 + n)⟩
    lost := 2, seq := 47 }

/-- 9.9 step 4. -/
theorem test_event_read : (after .eventRead { withCmd 0x05 [4] ready with
      events := overflowed }).events.records.getLast? = some ⟨.eventsLost 2, 47⟩ := by decide +kernel

/-- Stage PRELOAD with these ids left, segment 5's image of 40 bytes reaching beyond the memory. -/
def preloading (ids : List Byte) : State :=
  let s := declared { image .absent [] with source := .catalog 0x3FFFFF } ready
  { s with startup := { Startup.reset with stage := .preload, record := some ⟨none, [], ids⟩ } }

/-- The sequencer's next events. -/
def goingOn (count : Nat) (s : State) : State := after (.readTransactionEnd (.goesOn count)) s

/-- An EVENT_READ of four records. -/
def eventRead (s : State) : State := after .eventRead (withCmd 0x05 [4] s)

/-- R179: an EVENT_READ comes between a FILL_FAILED and STARTUP_DONE, and takes the first alone. -/
theorem test_events_between : (goingOn 3 (preloading [5])).events.records.map (·.event) =
      [.fillFailed 4 .length 0, .startupDone .ok 1 1 0] ∧
    (goingOn 2 (eventRead (goingOn 1 (preloading [5])))).events.records.map (·.event) =
      [.startupDone .ok 1 1 0] := by decide +kernel
/-- R181: with 16 failing preloads STARTUP_DONE is lost to a host that does not read, and received by one that reads
as start-up goes on. -/
theorem test_startup_received : let s := preloading (List.replicate 16 5)
    (goingOn 18 s).events.records.getLast?.map (·.event) = some (.fillFailed 4 .length 0) ∧
    (goingOn 18 s).events.lost = 2 ∧
    (goingOn 18 s).startup.stage = .run ∧
    (goingOn 10 (eventRead (goingOn 8 s))).events.records.getLast?.map (·.event) =
      some (.startupDone .ok 1 16 0) := by decide +kernel
/-- R145, R151: STARTUP_DONE of a stalled reset poll stands behind DN_STALLED, and an EVENT_READ comes between. -/
theorem test_stalled_between :
    let s := after .busyTimerExpiry (after .pollStart (after (.pinResetRelease 2 0 true) State.reset))
    (after (.pollEnd (.ends 1 [] true)) s).events.records.map (·.event) =
      [.dnStalled none 0 false, .startupDone .linkStalled 0 0 0] ∧
    (after (.pollEnd (.taken [])) (eventRead (after (.pollEnd (.ends 1 [] false)) s))).events.records.map (·.event) =
      [.startupDone .linkStalled 0 0 0] := by decide +kernel

/-! ### The map -/

/-- 1.9: segments 5 and 9 declared with lengths 8,192 and 4,096. -/
def example19 (base0 size0 off0 : Nat) : State := { ready with
  store := (ready.store.setSeg 4 (some (newRecord .host 8192 0 false))).setSeg 8
    (some (newRecord .host 4096 0 false))
  map := { ready.map with
    generation := 5
    shadow := ((ready.map.shadow.put 0 (some ⟨base0, size0, 4, off0, .discard, .hold⟩)).put 1
      (some ⟨0x41000, 0x1000, 8, 0, .shadow, .pass⟩)).put 2 (some ⟨0x60000, 0x100, 11, 0, .fault, .quiet⟩) } }

theorem test_map_write : (after .mapWrite (withCmd 0x10 [0, 0, 0, 4, 0, 0x20, 0, 5, 0, 1, 0, 0]
      ready)).map.shadow[0] = some ⟨0x40000, 0x2000, 4, 0x100, .discard, .hold⟩ := by decide +kernel
theorem test_map_clear : reply .mapClear 0x11 [0x20] ready = some (.badArgument, []) ∧
    (after .mapClear (withCmd 0x11 [1] (example19 0x40000 0x2000 0))).map.shadow[1] = none := by
  decide +kernel
theorem test_map_copy : (after .mapCopy (withCmd 0x12 [] (overlaid .discard .hold
      (seg .absent)))).map.shadow[0] = some ⟨0x40000, 0x200, 4, 0, .discard, .hold⟩ := by decide +kernel
theorem test_map_read : reply .mapRead 0x13 [1, 0] (example19 0x40000 0x2000 0x100) =
    some (.ok, [1, 0, 1, 0, 0, 4, 0, 0x20, 0, 5, 0, 1, 0, 0, 5, 0]) := by decide +kernel
/-- 1.9, the first and the second MAP_COMMIT. -/
theorem test_commit_refused :
    reply .mapCommit 0x14 [] (example19 0x40000 0x2000 0x100) = some (.invalidMap, [0, 2, 0xFF]) ∧
    reply .mapCommit 0x14 [] (example19 0x40000 0x2000 0) = some (.invalidMap, [1, 3, 0]) := by
  decide +kernel
/-- 1.9, the third and the fourth. -/
theorem test_commit :
    reply .mapCommit 0x14 [] (example19 0x40000 0x1000 0) = some (.invalidMap, [2, 1, 0xFF]) ∧
    reply .mapCommit 0x14 [] { example19 0x40000 0x1000 0 with
      store := (example19 0x40000 0x1000 0).store.setSeg 11 (some (newRecord .host 256 0 false)) } =
      some (.ok, [6, 0]) := by decide +kernel

/-! ### Segments -/

theorem test_declare : (after .segDeclare (withCmd 0x20 [5, 0, 0x20, 0, 0xB1, 0x29, 1] ready)).store.seg 4 =
    some (newRecord .host 8192 0x29B1 true) := by decide +kernel
theorem test_declare_long : reply .segDeclare 0x20 [5, 1, 0, 1, 0, 0, 0] ready = some (.badArgument, []) ∧
    reply .segDeclare 0x20 [5, 0, 0, 1, 0, 0, 0] ready = some (.ok, []) := by decide +kernel
theorem test_release_in_use : reply .segRelease 0x21 [5, 1] (overlaid .fault .fault (seg .failed)) =
    some (.inUse, []) := by decide +kernel
theorem test_release : (after .segRelease (withCmd 0x21 [5, 0] (declared (seg .failed) ready))).store.seg 4 =
    none := by decide +kernel
theorem test_drop_dirty : reply .segDrop 0x22 [5, 0] (declared { placed .resident with dirty := true } ready) =
    some (.dirty, []) := by decide +kernel
theorem test_drop_keeps_reason : ((after .segDrop (withCmd 0x22 [5, 0] (declared { seg .failed with
      lastFailure := some .crc } ready))).store.seg 4).map (fun r => (r.state, r.lastFailure)) =
    some (.absent, some .crc) := by decide +kernel
theorem test_pin : ((after .segPin (withCmd 0x23 [5, 1] (declared (seg .absent) ready))).store.seg 4).map
    (·.pinned) = some true := by decide +kernel
theorem test_query_undeclared : reply .segQuery 0x24 [62] ready =
    some (.ok, [62, 0, 0, 0xFF, 0xFF, 0xFF, 0, 0, 0, 0, 0, 0, 0, 0, 0xFF, 0xFF, 0, 0, 0, 0, 0, 0, 0, 0]) := by
  decide +kernel
/-- R49: the range check is made against the whole blocks, before the state. -/
theorem test_seg_read : reply .segRead 0x25 [5, 0xFF, 1, 2] (declared (placed .resident) ready) =
      some (.badArgument, []) ∧
    reply .segRead 0x25 [5, 0xFE, 1, 2] (declared (placed .resident) ready) = some (.ok, [0, 0]) := by
  decide +kernel

/-! ### Allocation: 2.9, with each block count divided by 4 -/

/-- A RESIDENT segment holding `n` blocks from `b` on. -/
def holdsBlocks (b n : Nat) (pinned dirty : Bool) : SegRecord :=
  { newRecord .host (n * 256) 0 pinned with
    state := .resident, dirty := dirty, blocks := (List.range n).map fun k => Fin.ofNat 512 (b + k) }

/-- Segments 3, 7, 2, 11 and 4 RESIDENT in that order, 10 blocks free. -/
def pressed : Store :=
  { sram := [], free := (List.range 10).map (Fin.ofNat 512), residence := [2, 6, 1, 10, 3],
    segs := (((((ready.store.setSeg 2 (holdsBlocks 10 16 false false)).setSeg 6
      (holdsBlocks 26 32 true false)).setSeg 1 (holdsBlocks 58 8 false true)).setSeg 10
      (holdsBlocks 66 25 false false)).setSeg 3 (holdsBlocks 91 37 false false)).segs }

/-- Segments 3 and 11 are evicted for 40 blocks, and 11 blocks stay free. -/
theorem test_allocate : (pressed.allocate 40 19).map (fun r =>
      (r.1.length, r.2.1.free.length, r.2.1.residence, r.2.2)) =
    some (40, 11, [6, 1, 3], [.evicted 2 16 19, .evicted 10 25 19]) := by decide +kernel
/-- The reachable count is 88: 89 blocks are refused, 88 granted. -/
theorem test_allocate_refused : (pressed.allocate 89 20).isNone = true ∧
    (pressed.allocate 88 20).isSome = true := by decide +kernel

/-! ### Fills -/

/-- 11.2 step 2. -/
theorem test_take_head : (after .takeHead { declared { seg .queued with held := 1 } ready with
      fill := { ready.fill with queue := [4] } }).events.records =
    [⟨.fillRequest 4 300 0x1234 1, 0⟩] := by decide +kernel
theorem test_preload : reply .preload 0x30 [5] (declared (seg .failed) ready) = some (.ok, [2]) ∧
    reply .preload 0x30 [5] (declared (placed .resident) ready) = some (.ok, [5]) := by decide +kernel
/-- 4.10 step 1: STARTED with the block count. -/
theorem test_fill_begin : reply .fillBegin 0x31 [5] (declared (seg .absent) ready) = some (.ok, [0, 2, 0]) := by
  decide +kernel
/-- 11.3 step 6: NO_SPACE. -/
theorem test_fill_begin_no_space : ((after .fillBegin (withCmd 0x31 [5]
      { declared (seg .absent) ready with
        store := { (declared (seg .absent) ready).store with free := [] } })).store.seg 4).map
      (fun r => (r.state, r.lastFailure)) = some (.failed, some .noSpace) := by decide +kernel

/-- Host loading of segment 5, `n` bytes received with this CRC. -/
def receiving (n : Nat) (crc : BitVec 16) : State :=
  engine (.loadingHost 4 (.direct .absent) n crc 500) (declared (placed .filling) ready)

/-- 4.10 steps 2 and 4. -/
theorem test_fill_data : reply .fillData 0x32 [0, 0, 0, 9] (receiving 0 0xFFFF) = some (.ok, [1, 0, 0]) ∧
    reply .fillData 0x32 [0, 0, 0, 9] (receiving 64 0xFFFF) = some (.sequence, [64, 0, 0]) := by
  decide +kernel
theorem test_fill_end : ((after .fillEnd (withCmd 0x33 [] (receiving 300 0x1234))).store.seg 4).map
      (fun r => (r.state, r.fills)) = some (.resident, 1) := by decide +kernel
theorem test_fill_end_crc : ((after .fillEnd (withCmd 0x33 [] (receiving 300 0x1235))).store.seg 4).map
      (fun r => (r.state, r.lastFailure)) = some (.failed, some .crc) := by decide +kernel
/-- 4.10 step 5: an undone direct fill with a read held is QUEUED, none errored. -/
theorem test_fill_abort : reply .fillAbort 0x34 [5] (holding (engine (.loadingHost 4 (.direct .absent) 64 0 500)
      (declared { placed .filling with held := 1 } ready))) = some (.ok, [2, 0]) := by decide +kernel
theorem test_start_timer : (after .startTimerExpiry (engine (.awaitHost 4 2000)
      (declared (seg .requested) ready))).fill.lastEnd = some (4, .failed .startTimeout) := by decide +kernel
theorem test_gap_timer : (after .gapTimerExpiry (receiving 64 0)).fill.lastEnd =
    some (4, .failed .dataTimeout) := by decide +kernel
/-- 7.8 step 1. -/
theorem test_catalog_load : (after .catalogLoad (withCmd 0x40 [0, 0, 0x20] ready)).ctl.loader =
    [⟨.catalog, 0x200000, 7, false, false⟩] := by decide +kernel
/-- 7.8 note 2. -/
theorem test_catalog_stalled : reply .catalogLoad 0x40 [0, 0, 0x20] (linkIs .stalled ready) =
    some (.linkStalled, []) := by decide +kernel

/-! ### Witnesses: concrete states and operands that meet a statement's hypotheses -/

theorem witness_StepRunsFront : State.reset.pending = [] ∧
    ({ ready with pending := [.takeHead] } : State).pending = .takeHead :: [] := ⟨rfl, rfl⟩
theorem witness_EveryCommandAnswers : ∀ sz ma be, Instr.takeHead ≠ .pinResetRelease sz ma be := nofun
/-- Asserted and not asserted, power-on and not. -/
theorem witness_PinResets : State.reset.pins.inReset = true ∧ ready.pins.inReset = false := ⟨rfl, rfl⟩
/-- With a read transfer of the other buffer's response on the bus. -/
theorem witness_SoftResetEffect :
    let s := withCmd 0x04 [] { ready with mgmt := { ready.mgmt with reading := some ⟨some .B, [1]⟩ } }
    s.handed 0x04 = some (.A, []) ∧ s.mgmt.reading = some ⟨some .B, [1]⟩ := by decide +kernel
/-- STARTING; a tag outstanding at a window's last byte; one byte too many. -/
theorem witness_AcceptanceChecks : State.reset.startup.stage ≠ .run ∧ ready.startup.stage = .run ∧
    State.reset.port.looked = none ∧ reading.port.looked = none ∧ PresentPart.lookup ≠ .enquiry ∧
    (31#24).toNat % 32 + 1 ≤ 32 ∧ (7 : Tag) ∈ reading.port.tags ∧ 32 < (31#24).toNat % 32 + 2 ∧
    32 < (31#24).toNat % 32 + ([1, 2] : List Byte).length := by decide +kernel

/-- Lookups that hit, at an entry's last window, and one that misses; both kinds of write policy. -/
theorem witness_PresentationInParts : (overlaid .shadow .hold (seg .absent)).port.looked = none ∧
    (overlaid .shadow .hold (seg .absent)).startup.stage = .run ∧ (0x401E0#24).toNat % 32 + 32 ≤ 32 ∧
    (3 : Tag) ∉ (overlaid .shadow .hold (seg .absent)).port.tags ∧
    (overlaid .shadow .hold (seg .absent)).map.lookup 0x401E0 32 = some ⟨0, 4, 480, .shadow, .hold⟩ ∧
    (overlaid .discard .hold (seg .absent)).map.lookup 0x401E0 2 = some ⟨0, 4, 480, .discard, .hold⟩ ∧
    (overlaid .through .hold (seg .absent)).map.lookup 0x401E0 2 = some ⟨0, 4, 480, .through, .hold⟩ ∧
    ready.map.lookup 0x401E0 32 = none := by decide +kernel
/-- A read and a write that wait, on a declared segment and on one released meanwhile; an enquiry of another. -/
theorem witness_PresentationInParts_waiting :
    let s := after (.read 3 0x401E0 ⟨32, .lookup⟩) (overlaid .shadow .hold (seg .absent))
    let t := released (.write 0x401E0 ⟨[1, 2], .lookup⟩) .shadow
    s.port.looked = some (.read ⟨3, (0x401E0#24).toNat, 32⟩ ⟨0, 4, 480, .shadow, .hold⟩) ∧
    s.startup.stage = .run ∧ (3 : Tag) ∉ s.port.tags ∧
    (mapped .shadow .hold ready).map.lookup (0x401E0#24).toNat 32 = some ⟨0, 4, 480, .shadow, .hold⟩ ∧
    t.port.looked = some (.write (0x401E0#24).toNat [1, 2] ⟨0, 4, 480, .shadow, .hold⟩) ∧
    (mapped .shadow .hold ready).map.lookup (0x401E0#24).toNat 2 = some ⟨0, 4, 480, .shadow, .hold⟩ ∧
    t.store.seg 4 = none ∧ t.port.looked ≠ none ∧ t.startup.stage = .run ∧
    (released (.write 0x401E0 ⟨[1, 2], .lookup⟩) .discard).port.looked =
      some (.write (0x401E0#24).toNat [1, 2] ⟨0, 4, 480, .discard, .hold⟩) ∧
    (released (.read 3 0x401E0 ⟨32, .lookup⟩) .fault).store.seg 4 = none ∧
    (released (.read 3 0x401E0 ⟨32, .lookup⟩) .fault).port.looked =
      some (.read ⟨3, (0x401E0#24).toNat, 32⟩ ⟨0, 4, 480, .fault, .hold⟩) := by decide +kernel
theorem witness_PresentationInParts_none :
    (∀ tag addr len h, ready.port.looked ≠ some (.read ⟨tag, addr, len⟩ h)) ∧
    ∀ addr data h, ready.port.looked ≠ some (.write addr data h) := ⟨nofun, nofun⟩

/-- A miss, and a hit whose segment is UNDECLARED. -/
theorem witness_ReadMissQueued : ready.port.looked = none ∧ ready.startup.stage = .run ∧ (0x401E0#24).toNat % 32 + 32 ≤ 32 ∧
    (3 : Tag) ∉ ready.port.tags ∧ ready.map.lookup 0x401E0 32 = none ∧
    (mapped .fault .hold ready).map.lookup 0x401E0 32 = some ⟨0, 4, 480, .fault, .hold⟩ ∧
    (mapped .fault .hold ready).store.seg 4 = none := by decide +kernel
/-- The three outcomes of a miss: beyond the memory, on a stalled link, queued. -/
theorem witness_ReadMissQueued_cases : ready.memSize ≤ 0x400000 ∧ ready.map.lookup 0x400000 32 = none ∧
    (linkIs .stalled ready).ctl.link = .stalled ∧ ¬ ready.memSize ≤ 0x3FFFE0 := by decide +kernel
/-- A hit at the last window of an entry on each kind of segment, for every policy. -/
theorem witness_hit : ∀ w ∈ [WritePolicy.discard, .through, .shadow, .fault],
    ∀ a ∈ [AbsencePolicy.hold, .pass, .quiet, .fault], ∀ g ∈ [SegState.absent, .filling, .failed],
      (overlaid w a (seg g)).port.looked = none ∧
      (overlaid w a (seg g)).startup.stage = .run ∧ (0x401E0#24).toNat % 32 + 32 ≤ 32 ∧
      (3 : Tag) ∉ (overlaid w a (seg g)).port.tags ∧
      (overlaid w a (seg g)).map.lookup 0x401E0 32 = some ⟨0, 4, 480, w, a⟩ ∧
      (overlaid w a (seg g)).store.seg 4 = some (seg g) ∧ 0x401E0 < (overlaid w a (seg g)).memSize ∧
      (overlaid w a (seg g)).ctl.link ≠ .stalled := by decide +kernel
theorem witness_ReadOverlayAnswered : (overlaid .fault .fault (placed .resident)).map.lookup 0x401E0 32 =
      some ⟨0, 4, 480, .fault, .fault⟩ ∧
    (overlaid .fault .fault (placed .resident)).store.seg 4 = some (placed .resident) ∧
    (placed .resident).state = .resident ∧ (overlaid .fault .fault (placed .resident)).port.looked = none ∧
    (overlaid .fault .fault (placed .resident)).startup.stage = .run := by decide +kernel
/-- Room, a full held-read table, a full fill queue. -/
theorem witness_ReadHoldParks : (seg .absent).state ≠ .resident ∧ (seg .absent).state ≠ .failed ∧
    (overlaid .fault .hold (seg .absent)).port.held.length < 8 ∧
    8 ≤ (List.replicate 8 heldRead).length ∧ 8 ≤ (List.replicate 8 (4 : SegId)).length := by decide +kernel
/-- Room and no room in the fill queue. -/
theorem witness_ReadPassQueued : (AbsencePolicy.pass = .pass ∧ (seg .absent).state = .absent ∧
      (overlaid .fault .pass (seg .absent)).fill.queue.length < 8) ∧
    ¬ (List.replicate 8 (4 : SegId)).length < 8 := by decide +kernel
theorem witness_HitsRefused_read : (seg .failed).state = .failed ∧ (seg .failed).state ≠ .resident ∧
    ({ overlaid .fault .pass (seg .failed) with pins := { ready.pins with sz := 0 } } : State).memSize =
      0x100000 ∧ (linkIs .stalled (overlaid .fault .pass (seg .failed))).ctl.link = .stalled := by
  decide +kernel
/-- An entry at the end of a 1 MiB memory: the last byte below it and the first at it. -/
theorem witness_HitsRefused_range :
    let s : State := { ready with
      pins := { ready.pins with sz := 0 }
      store := ready.store.setSeg 4 (some (seg .failed))
      map := { ready.map with active := ready.map.active.put 0 (some ⟨0xFFF00, 0x200, 4, 0, .fault, .pass⟩) } }
    s.map.lookup 0x100000 32 = some ⟨0, 4, 0x100, .fault, .pass⟩ ∧ s.memSize ≤ 0x100000 ∧
    s.map.lookup 0xFFFE0 32 = some ⟨0, 4, 0xE0, .fault, .pass⟩ ∧ 0xFFFE0 < s.memSize := by decide +kernel

/-- A miss and a THROUGH hit; the high-water mark reached and not reached. -/
theorem witness_WriteAdmission : (0x300000#24).toNat % 32 + ([1, 2] : List Byte).length ≤ 32 ∧
    ready.map.lookup 0x300000 2 = none ∧ ready.startup.stage = .run ∧
    (overlaid .through .hold (seg .absent)).map.lookup 0x401E0 32 = some ⟨0, 4, 480, .through, .hold⟩ ∧
    ¬ ready.write.highWater ≤ (polling false).write.queue.length ∧
    ({ polling false with write := { (polling false).write with highWater := 1 } } : State).write.highWater ≤
      (polling false).write.queue.length := by decide +kernel
/-- A write up to the last byte of block-list entry 1. -/
theorem witness_WriteShadowStored :
    (overlaid .shadow .hold (placed .resident)).map.lookup 0x401FE 2 = some ⟨0, 4, 510, .shadow, .hold⟩ ∧
    (0x401FE#24).toNat % 32 + ([1, 2] : List Byte).length ≤ 32 ∧ (placed .resident).state = .resident ∧
    (overlaid .shadow .hold (placed .resident)).store.seg 4 = some (placed .resident) ∧
    (overlaid .shadow .hold (placed .resident)).port.looked = none ∧
    Memory.wf (overlaid .shadow .hold (placed .resident)).store.sram ∧ (placed .resident).blocks.Nodup ∧
    510 + ([1, 2] : List Byte).length ≤ (placed .resident).blocks.length * 256 := by decide +kernel
/-- The other write statements take their lookup from `witness_hit`; their reasons follow the policies. -/
theorem witness_HitsRefused_write : ∀ r, (overlaid .shadow .hold (seg .absent)).store.seg 4 = some r →
    r.state ≠ .resident := by
  intro r h
  have : (overlaid .shadow .hold (seg .absent)).store.seg 4 = some (seg .absent) := by decide +kernel
  rw [this] at h; cases h; decide
theorem witness_WriteDiscardCounted : (overlaid .discard .hold (seg .absent)).map.lookup 0x401E0 2 =
    some ⟨0, 4, 480, .discard, .hold⟩ ∧ (0x401E0#24).toNat % 32 + 2 ≤ 32 := by decide +kernel

/-- Every management command's hypothesis: buffer A holds its frame and is handed to the owner. -/
theorem witness_handed : ∀ c ∈ [0x01, 0x02, 0x03, 0x05, 0x10, 0x11, 0x12, 0x13, 0x14, 0x20, 0x21, 0x22, 0x23,
    0x24, 0x25, 0x30, 0x31, 0x32, 0x33, 0x34, 0x40, 0x41],
    (withCmd c [5, 0] ready).handed c = some (.A, [5, 0]) := by decide +kernel
/-- MAP_CLEAR and MAP_READ at the boundaries of their indexes. -/
theorem witness_MapClearCopyRead : (31 = (byteAt [31] 0).toNat ∧ 31 < 32) ∧ 255 = (byteAt [255] 0).toNat ∧
    (32 = (byteAt [32] 0).toNat ∧ ¬ (32 < 32 ∨ 32 = 255)) := by decide +kernel
theorem witness_MapClearCopyRead_read : ((byteAt [1, 31] 1).toNat = (31 : MapIndex).val ∧
    ¬ (1 < (byteAt [1, 31] 0).toNat ∨ 31 < (byteAt [1, 31] 1).toNat)) ∧ 31 < (byteAt [1, 32] 1).toNat ∧
    1 < (byteAt [2, 31] 0).toNat := by decide +kernel
/-- A MAP_COMMIT at a generation. -/
def atGeneration (g : BitVec 16) : State :=
  withCmd 0x14 [] { ready with map := { ready.map with generation := g } }
/-- Generation 65535 and one below it. -/
theorem witness_MapCommitEffect : (atGeneration 65534).handed 0x14 = some (.A, []) ∧
    (atGeneration 65535).handed 0x14 = some (.A, []) := by decide +kernel
theorem witness_CommitValidation : (Bank.invalid.put 0
      (some ⟨0x40000, 0x300, 4, 0, .fault, .hold⟩)).validate (declared (seg .absent) ready).store =
    some ⟨0, .beyondSegment, none⟩ := by decide +kernel
theorem ready_active : ∀ i : MapIndex, ready.map.active[i] = none := by decide +kernel
theorem ready_shadow : ∀ i : MapIndex, ready.map.shadow[i] = none := by decide +kernel

theorem mapped_active (w : WritePolicy) (a : AbsencePolicy) (r : SegRecord) (i : MapIndex) (e : MapEntry)
    (h : (overlaid w a r).map.active[i] = some e) : i = 0 ∧ e = ⟨0x40000, 0x200, 4, 0, w, a⟩ := by
  have h' := (Bank.getElem_put ready.map.active 0 i (some ⟨0x40000, 0x200, 4, 0, w, a⟩)).symm.trans h
  rw [ready_active] at h'
  split at h'
  · exact ⟨‹_›, (Option.some.inj h').symm⟩
  · cases h'

/-- A bank with one valid entry obeys the law of ACTIVE. -/
theorem overlaid_activeLaw (w : WritePolicy) (a : AbsencePolicy) :
    ActiveLaw (overlaid w a (seg .absent)) := by
  refine ⟨fun i j e f hi hj hij => ?_, fun i e hi => ?_⟩
  · exact absurd ((mapped_active w a _ i e hi).1.trans (mapped_active w a _ j f hj).1.symm) hij
  · rw [(mapped_active w a _ i e hi).2]
    exact ⟨seg .absent, (Store.seg_setSeg ready.store 4 4 _).trans (if_pos rfl), by
      show 0 + 0x200 ≤ blocksFor 300 * 256
      decide⟩

/-- A request inside its entry, and one byte beyond it. -/
theorem witness_LookupHits : ActiveLaw (overlaid .fault .hold (seg .absent)) ∧
    (overlaid .fault .hold (seg .absent)).map.active[(0 : MapIndex)] =
      some ⟨0x40000, 0x200, 4, 0, .fault, .hold⟩ ∧ 0x401E0 + 32 ≤ 0x40000 + 0x200 ∧
    ¬ 0x401E1 + 32 ≤ 0x40000 + 0x200 :=
  ⟨overlaid_activeLaw .fault .hold, by decide +kernel, by decide, by decide⟩

/-- Segment commands: the ids 0 and 63 are none, 1 and 62 are; declared and UNDECLARED. -/
theorem witness_SegmentRefusals : segId? (byteAt [0, 0] 0).toNat = none ∧
    segId? (byteAt [63, 0] 0).toNat = none ∧ segId? (byteAt [62, 1] 0).toNat = some 61 ∧
    1 < (byteAt [62, 2] 1).toNat ∧ ready.store.seg 61 = none := by decide +kernel
theorem witness_SegDeclareEffect : 65536 = field [5, 0, 0, 1, 0, 0, 1] 1 3 ∧
    65537 = field [5, 1, 0, 1, 0, 0, 1] 1 3 ∧ segId? (byteAt [5, 0, 0, 1, 0, 0, 1] 0).toNat = some 4 := by
  decide +kernel
/-- A declared segment named by its number, with and without an ACTIVE entry that names it. -/
theorem witness_declared : (byteAt [5, 0] 0).toNat = segNum 4 ∧ (byteAt [5, 0] 1).toNat ≤ 1 ∧
    (withCmd 0x21 [5, 0] (declared (placed .resident) ready)).store.seg 4 = some (placed .resident) ∧
    (withCmd 0x21 [5, 0] (declared (placed .resident) ready)).handed 0x21 = some (.A, [5, 0]) := by
  decide +kernel
theorem witness_SegReleaseEffect : (∀ k : MapIndex, (declared (seg .failed) ready).map.active[k] = none) ∧
    (overlaid .fault .hold (seg .failed)).map.active[(0 : MapIndex)] =
      some ⟨0x40000, 0x200, 4, 0, .fault, .hold⟩ := by decide +kernel
theorem witness_AllocationConserves : pressed.residence.Nodup ∧ ¬ pressed.reachable < 88 ∧
    pressed.reachable < 89 := by decide +kernel

/-! #### Fills -/

theorem witness_FillFailure : (declared (placed .filling) ready).store.seg 4 = some (placed .filling) ∧
    (engine (.awaitHost 4 2000) ready).fill.engine = .awaitHost 4 2000 ∧
    (engine (.loadingHost 4 .queue 5 0 500) ready).fill.engine = .loadingHost 4 .queue 5 0 500 := by
  decide +kernel
theorem witness_FillFailure_stopped : (∀ i d, ready.fill.engine ≠ .awaitHost i d) ∧
    ∀ i o n c d, ready.fill.engine ≠ .loadingHost i o n c d := ⟨nofun, nofun⟩
/-- A host segment and a catalog segment at the head; an image that ends at the memory's end fits. -/
theorem witness_TakeHeadEffect :
    let s := fun r : SegRecord =>
      ({ declared r ready with fill := { ready.fill with queue := [4] } } : State)
    (s (seg .queued)).fill.engine = .idle ∧ (s (seg .queued)).fill.queue = 4 :: [] ∧
    (s (seg .queued)).store.seg 4 = some (seg .queued) ∧ (seg .queued).source = .host ∧
    (image .queued []).source = .catalog 0x114000 ∧ (image .queued []).state = .queued ∧
    ¬ (s (seg .queued)).memSize < 0x400000 - 40 + 40 := by decide +kernel
theorem witness_FillBeginEffect : (∃ d, (engine (.awaitHost 4 2000) ready).fill.engine = .awaitHost 4 d) ∧
    (declared (seg .absent) ready).fill.engine = .idle ∧
    ((declared (seg .absent) ready).store.allocate ((300 + 255) / 256) 4).isSome = true ∧
    ready.store.reachable < 513 := ⟨⟨2000, rfl⟩, by decide +kernel⟩
theorem witness_FillBeginEffect_refused : (receiving 0 0).fill.engine ≠ .idle ∧
    (∀ d, (receiving 0 0).fill.engine ≠ .awaitHost 4 d) ∧
    (placed .resident).state ≠ .absent ∧ (placed .resident).state ≠ .failed :=
  ⟨nofun, nofun, by decide, by decide⟩
theorem witness_FillDataEffect : (∀ i o n c d, ready.fill.engine ≠ .loadingHost i o n c d) ∧
    (receiving 299 0).fill.engine = .loadingHost 4 (.direct .absent) 299 0 500 ∧
    (receiving 299 0).store.seg 4 = some (placed .filling) ∧
    field [0x2B, 1, 0, 9] 0 3 = 299 ∧ ¬ 300 < 299 + ([0x2B, 1, 0, 9].drop 3).length ∧
    300 < 299 + ([0x2B, 1, 0, 9, 9].drop 3).length := ⟨nofun, by decide +kernel⟩
/-- A fill request ungranted behind CATALOG_LOAD's, and one granted at the head. -/
theorem witness_FillAbortEffect_withdraw :
    ([⟨.catalog, 0, 7, true, false⟩, ⟨.fill, 0x114000, 32, false, false⟩] : List LoaderRequest) =
      [⟨.catalog, 0, 7, true, false⟩] ++ ⟨.fill, 0x114000, 32, false, false⟩ :: [] ∧
    ({ ready.ctl with loader := [⟨.fill, 0, 32, false, false⟩], aging := 5 } : Controller).withdrawFill =
      ready.ctl ∧
    ({ ready.ctl with loader := [⟨.fill, 0, 32, true, false⟩] } : Controller).withdrawFill.loader =
      [⟨.fill, 0, 32, true, true⟩] := by decide +kernel
/-- FILL_ABORT of each origin, with and without a read held. -/
theorem witness_FillAbortEffect : (receiving 64 0).fill.engine.current = some 4 ∧
    (receiving 64 0).fill.engine.origin = some (.direct .absent) ∧
    (engine (.awaitHost 4 2000) ready).fill.engine.origin = some .queue ∧
    ready.fill.engine.current ≠ some 4 ∧ (placed .filling).held = 0 ∧
    ({ placed .filling with held := 1 } : SegRecord).held ≠ 0 := by decide +kernel

/-! #### The serial link, start-up and the catalog -/

theorem witness_ArbiterGrants : ready.ctl.link = .ready ∧ ready.ctl.holder = .none ∧
    twoOffers.write.queue = [entryA false] ∧ (entryA false).inFlight = false ∧
    twoOffers.offersW = true ∧ twoOffers.ctl.offersL = true ∧ twoOffers.offersR = false ∧
    ¬ 6 ≤ twoOffers.write.queue.length ∧ ¬ 8 ≤ twoOffers.ctl.aging ∧ reading.ctl.holder ≠ .none := by
  decide +kernel
theorem witness_ReadCompletes : reading.ctl.tx = some ⟨.read 0x100000 ([1, 2, 3, 4] : List Byte).length, 8⟩ ∧
    reading.ctl.holder = .r ∧ reading.port.readQueue = [⟨7, 0x100000, 4, true⟩] := by decide +kernel
/-- A catalog header and a boot record's first window on the link, and a withdrawn chunk. -/
theorem witness_ReadCompletes_loader : ∀ c ∈ [Requester.catalog, .bootRecord, .fill], ∀ w ∈ [true, false],
    let s := onLink .l (.read 0x3FF000 32) ready
    let t : State := { s with ctl := { s.ctl with
      loader := [⟨c, 0x3FF000, 32, true, w⟩, ⟨.fill, 0x114000, 32, false, false⟩] } }
    t.ctl.tx = some ⟨.read 0x3FF000 (List.replicate 32 (0xFF : Byte)).length, 8⟩ ∧ t.ctl.holder = .l ∧
    t.ctl.loader = ⟨c, 0x3FF000, 32, true, w⟩ :: [⟨.fill, 0x114000, 32, false, false⟩] ∧
    ([1] : List Byte).length ≠ 32 := by decide +kernel
/-- Bytes of an erased memory, whose counts show no end within the window, and those of a record of 12 bytes. -/
theorem witness_ReadCompletes_boot :
    (List.replicate 32 (0xFF : Byte)).length = ready.bootLen ⟨[], 0xFFFF⟩ (List.replicate 32 0xFF) ∧
    (List.replicate 32 (0 : Byte)).length ≠ ready.bootLen ⟨[], 0xFFFF⟩ (List.replicate 32 0) := by decide +kernel
theorem witness_ChunkArrives : ∀ w ∈ [true, false], (loading w).ctl.holder = .l ∧
    (loading w).ctl.tx = some ⟨.read 0x114000 (List.replicate 32 (5 : Byte)).length, 8⟩ ∧
    (loading w).ctl.loader = [⟨.fill, 0x114000, 32, true, w⟩] ∧ (loading w).startup.stage = .run ∧
    (loading w).fill.engine = .loadingCatalog 4 .queue 0 0xFFFF ∧
    (loading w).store.seg 4 = some (image .filling [9]) ∧
    (image .filling [9]).source = .catalog 0x114000 ∧ 0x114000 + 40 ≤ (loading w).memSize ∧
    (loading w).ctl.link = .ready := by decide +kernel
theorem witness_WriteSequence : enabling.ctl.tx = some ⟨.writeEnable, 8⟩ ∧
    enabling.write.queue = [entryA true] ∧
    (after .writeEnableEnd enabling).ctl.tx = some ⟨.write 0x300000 [1, 2], 8⟩ ∧
    ((linkIs .busyWait ready).ctl.tx = none ∧ ready.pins.inReset = false) ∧
    (polling false).ctl.busyTimer = some 20 ∧ (polling false).ctl.link = .busyWait ∧
    (polling false).ctl.tx = some ⟨.readStatus, 8⟩ ∧ (polling false).ctl.holder = .w ∧
    (polling false).ctl.expired = false ∧ (0xFE#8).getLsbD 0 = false ∧ (1#8).getLsbD 0 = true := by
  decide +kernel
/-- A busy timeout and a reset-poll timeout, with no catalog fill and with one. -/
theorem witness_StallsLink : (polling true).ctl.expired = true ∧ (polling true).startup.stage = .run ∧
    (polling true).write.queue = [entryA true] ∧ (entryA true).inFlight = true ∧
    ({ polling true with ctl := { (polling true).ctl with holder := .poll } } : State).ctl.holder = .poll ∧
    (polling true).startup.catalog = none ∧
    (after .catalogLoad (withCmd 0x40 [0, 0, 0x20] ready)).startup.catalog = some ⟨0x200000, .header []⟩ ∧
    (after (.readTransactionEnd (.goesOn 1)) applying).startup.catalog =
      some ⟨0x200000, .applying [List.replicate 10 0] 0 1⟩ ∧
    (after (.pinResetRelease 2 0 true) State.reset).startup.stage = .poll ∧
    (engine (.loadingCatalog 4 .queue 0 0) (polling true)).fill.engine = .loadingCatalog 4 .queue 0 0 := by
  decide +kernel
/-- The part just released from reset with BOOT_EN 0. -/
theorem witness_ResetPollEnds_disabled :
    let s := after (.pinResetRelease 2 0 false) State.reset
    s.ctl.link = .busyWait ∧ s.ctl.holder = .poll ∧ s.ctl.tx = some ⟨.readStatus, 8⟩ ∧ s.startup.stage ≠ .poll ∧
    (0xFE#8).getLsbD 0 = false := by decide +kernel
/-- The part just released from reset with BOOT_EN 1. -/
theorem witness_ResetPollEnds :
    let s := after (.pinResetRelease 2 0 true) State.reset
    s.ctl.link = .busyWait ∧ s.ctl.holder = .poll ∧ s.ctl.tx = some ⟨.readStatus, 8⟩ ∧
    s.startup.stage = .poll ∧ (after .busyTimerExpiry s).ctl.expired = true ∧ s.port.readQueue = [] ∧
    s.fill.engine = .idle ∧ s.startup.catalog = none ∧ s.startup.outcome = .ok ∧
    (0 = field [0xC4, 0x90, 0x2E, 0x5B, 1, 0xFF, 0xFF, 0xFF, 0, 1, 3, 0, 0] 8 1 ∧
      1 = field [0xC4, 0x90, 0x2E, 0x5B, 1, 0xFF, 0xFF, 0xFF, 0, 1, 3, 0, 0] (9 + 12 * 0) 1 ∧
      min 32 (12 + 12 * 0 + 1) = 13) := by decide +kernel
/-- The sequencer in stage POLL with the poll ended not busy, and at the timeout. -/
theorem witness_ResetPollEnds_taken :
    let s := after .pollStart (after (.pinResetRelease 2 0 true) State.reset)
    let t := after (.pollEnd (.ends 0 [] false)) s
    let u := after (.pollEnd (.ends 1 [] false)) (after .busyTimerExpiry s)
    t.startup.stage = .poll ∧ t.ctl.link = .ready ∧
    u.startup.stage = .poll ∧ u.ctl.link = .stalled ∧ u.startup.outcome = .ok ∧
    ready.startup.stage ≠ .poll ∧ s.ctl.link = .busyWait := by decide +kernel
/-- R146: a record of 13 bytes is read by a request of 13 bytes, and bytes that show such a record do not end a
READ of 32. -/
theorem test_boot_end :
    let s := after (.pinResetRelease 2 0 true) State.reset
    let record : List Byte := [0xC4, 0x90, 0x2E, 0x5B, 1, 0xFF, 0xFF, 0xFF, 0, 1, 3, 0, 0]
    let t := after (.pollEnd (.ends 0 (List.replicate 32 0xFF) true)) s
    (after (.pollEnd (.ends 0 record true)) s).ctl.loader = [⟨.bootRecord, 0x3FF000, 13, false, false⟩] ∧
    t.ctl.loader = [⟨.bootRecord, 0x3FF000, 32, false, false⟩] ∧
    (after .arbiterChoice t).ctl.holder = .l ∧
    after (.readTransactionEnd (.ends (record ++ List.replicate 19 0xFF) [] 0)) (after .arbiterChoice t) =
      after .arbiterChoice t := by decide +kernel
theorem witness_LinkRecovers : (withCmd 0x41 [] (linkIs .stalled ready)).handed 0x41 = some (.A, []) ∧
    (withCmd 0x41 [] (linkIs .stalled ready)).ctl.link = .stalled ∧ recovering.ctl.link = .stalled ∧
    recovering.ctl.holder = .poll ∧ recovering.ctl.tx = some ⟨.readStatus, 8⟩ ∧
    recovering.mgmt.executor = .busy .A .linkRecover ∧
    recovering.mgmt.buf .A = .executing ⟨0x41, []⟩ 60 := by decide +kernel
/-- A header whose window ends with the memory, and one a byte beyond it. -/
theorem witness_CatalogLoadBegins : 0x3FFFF9 = field [0xF9, 0xFF, 0x3F] 0 3 ∧
    7 = min (32 - 0x3FFFF9 % 32) 7 ∧ 0x3FFFF9 + 7 ≤ ready.memSize ∧ ready.ctl.link ≠ .stalled ∧
    0x400000 = field [0, 0, 0x40] 0 3 ∧ ready.memSize < 0x400000 + 7 := by decide +kernel
theorem witness_CatalogApplied : field [0x5E, 0xA1, 0xC7, 0x43, 62] 0 4 = 0x43C7A15E ∧
    62 < field [0x5E, 0xA1, 0xC7, 0x43, 63] 4 1 ∧
    descriptor [5, 1, 0, 0, 1, 0, 0x40, 0x11, 0x34, 0x12] = ⟨5, true, 65536, 0x114000, 0x1234⟩ ∧
    segId? (5#8).toNat = some 4 ∧ ready.store.seg 4 = none ∧
    (declared (seg .absent) ready).store.seg 4 = some (seg .absent) := by decide +kernel
/-- A header in the reading and its last bytes; the descriptors after it. -/
theorem witness_CatalogApplied_read :
    let s := after .catalogLoad (withCmd 0x40 [0, 0, 0x20] ready)
    s.startup.catalog = some ⟨0x200000, .header []⟩ ∧ (7 : Nat) = min (32 - 0x200000 % 32) 7 ∧
    0x200000 + 7 ≤ s.memSize ∧ s.ctl.link ≠ .stalled ∧
    field [0x5E, 0xA1, 0xC7, 0x43, 1, 0, 0] 4 1 = 1 ∧
    (∀ d ∈ [[5, 1, 0, 0, 1, 0, 0x40, 0x11, 0x34, 0x12]], (d : List Byte).length = 10) ∧
    applying.startup.catalog = some ⟨0x200000, .applying (List.replicate 2 (List.replicate 10 0)) 0 0⟩ ∧
    1 < (List.replicate 2 (List.replicate 10 (0 : Byte))).length ∧
    s.startup.catalog ≠ applying.startup.catalog := by decide +kernel
/-- Descriptors whose first window ends with the memory, and the last of them beyond it; a stalled link. -/
theorem witness_CatalogApplied_range :
    let c : CatalogRead := ⟨0x3FFFE0, .descriptors 62 0 [] 0xFFFF⟩
    let d : CatalogRead := ⟨0x400000, .descriptors 62 0 (List.replicate 32 0) 0⟩
    (min (32 - c.next % 32) (620 - 0) = 32 ∧ c.next + 32 ≤ ready.memSize) ∧
    (min (32 - d.next % 32) (620 - 32) = 32 ∧ ready.memSize < d.next + 32) ∧
    ready.ctl.link ≠ .stalled ∧ (linkIs .stalled ready).ctl.link = .stalled ∧
    c.next + 32 ≤ (linkIs .stalled ready).memSize := by decide +kernel
theorem witness_CatalogApplied_end :
    let s := after .catalogLoad (withCmd 0x40 [0, 0, 0x20] ready)
    s.startup.stage = .run ∧ s.mgmt.executor = .busy .A .catalogLoad ∧
    s.mgmt.buf .A = .executing ⟨0x40, [0, 0, 0x20]⟩ 60 := by decide +kernel

/-- A boot record with no map entry and one preload, id 3. -/
def bootRecord : List Byte :=
  let bs : List Byte := [0xC4, 0x90, 0x2E, 0x5B, 1, 0xFF, 0xFF, 0xFF, 0, 1, 3]
  bs ++ leBytes 2 (crc16Over crc16Init bs).toNat

/-- R142, R146: it is accepted with its contents. -/
theorem test_boot_record : bootBytes ⟨[], 0xFFFF⟩ bootRecord = .good ⟨none, [], [3]⟩ := by decide +kernel
theorem witness_BootRecordChecked : bootRecord.length = 12 + 12 * 0 + 1 ∧ 0 = field bootRecord 8 1 ∧
    1 = field bootRecord (9 + 12 * 0) 1 ∧ field bootRecord 0 4 = 0x5B2E90C4 ∧ byteAt bootRecord 4 = 1 := by
  decide +kernel
/-- A READ of stage RECORD that brings part of a record, one that fails its magic check and has brought every
byte it asked for (R127), and one that brings the last byte of the record above. -/
theorem witness_BootRecordChecked_arrived :
    bootBytes ⟨[], 0xFFFF⟩ [0xC4, 0x90] =
      .reading ⟨[0xC4, 0x90], crc16Over 0xFFFF [0xC4, 0x90]⟩ ∧
    bootBytes ⟨[], 0xFFFF⟩ (List.replicate 32 0xFF) = .bad ∧
    ready.bootLen ⟨[0xC4, 0x90], 0⟩ [0x2E, 0x5B, 1, 0xFF, 0xFF, 0xFF, 0, 0] = 10 ∧
    ready.memSize - 4096 + 2 + 10 ≤ ready.memSize ∧ ready.ctl.link ≠ .stalled := by decide +kernel
/-- The sequencer in stage RECORD, its second request on the link (11.1): 6 bytes at 3FF020h. -/
theorem test_boot_request : (requestBoot [1, 2, 3, 4, 0, 0, 0xFF, 0xFF] { ready with startup := { ready.startup with
      bootRead := some ⟨List.replicate 8 0 ++ 2 :: List.replicate 23 0, 0⟩ } }).ctl.loader =
    [⟨.bootRecord, 0x3FF020, 6, false, false⟩] := by decide +kernel
/-- R127: a READ whose bytes fail the magic check ends with all of them, and start-up ends NO_RECORD. -/
theorem test_boot_bad :
    let s := onLink .l (.read 0x3FF000 32) ready
    (after (.readTransactionEnd (.ends (List.replicate 32 0xFF) [] 0)) { s with
      ctl := { s.ctl with loader := [⟨.bootRecord, 0x3FF000, 32, true, false⟩] }
      startup := { Startup.reset with stage := .record, bootRead := some ⟨[], 0xFFFF⟩ } }).startup.outcome =
    .noRecord := by decide +kernel
/-- A stage with this record. -/
def inStage (g : Stage) (r : BootRecord) (s : State) : State :=
  { s with startup := { s.startup with stage := g, record := some r } }

/-- Stage CATALOG; stage MAP with an entry left and without; preload ids that name nothing, an UNDECLARED segment,
and a catalog segment; an engine at work and a fill queued; a stage without events. -/
theorem witness_StartupMapAndPreloads :
    (inStage .catalog ⟨none, [], []⟩ ready).startup.stage = .catalog ∧
    (let s := inStage .map ⟨none, [rawEntry []], []⟩ ready;
      s.startup.stage = .map ∧ s.entriesLeft = [rawEntry []] ∧
      (goingOn 1 s).startup.stage = .commit ∧ (goingOn 1 s).entriesLeft = []) ∧
    MapEntry.Legal ⟨0x40000, 0x200, 4, 0, .discard, .hold⟩ ∧ segId? (63#8).toNat = none ∧
    segId? (5#8).toNat = some 4 ∧ ready.store.seg 4 = none ∧
    (declared (image .failed []) ready).store.seg 4 = some (image .failed []) ∧
    (image .failed []).source = .catalog 0x114000 ∧ (image .failed []).state = .failed ∧
    (let s := inStage .preload ⟨none, [], [5]⟩ ready;
      s.startup.stage = .preload ∧ s.preloadsLeft = [5] ∧ s.fill.engine = .idle ∧ s.fill.queue = []) ∧
    (inStage .preload ⟨none, [], [5]⟩ (loading false)).fill.engine ≠ .idle ∧
    ready.startup.stage ∈ [Stage.poll, .record, .catalog, .run] := by
  unfold MapEntry.Legal; decide +kernel
/-- Stage COMMIT before the commit, with map faulted and without, and after it. -/
theorem witness_StartupCommits : let s := inStage .commit ⟨none, [], []⟩ ready
    s.startup.stage = .commit ∧ s.startup.committed = false ∧ s.startup.mapFaulted = false ∧
    s.map.shadow.Consistent s.store ∧ (sequencerEvent s).startup.stage = .commit ∧
    (sequencerEvent s).startup.committed = true ∧
    ({ s with startup := { s.startup with mapFaulted := true } } : State).startup.mapFaulted = true := by
  refine ⟨rfl, rfl, rfl, ⟨fun i j e f hi => ?_, fun i e hi => ?_⟩, by decide +kernel, by decide +kernel, rfl⟩
  · rw [show (inStage _ _ ready).map = ready.map from rfl, ready_shadow] at hi; cases hi
  · rw [show (inStage _ _ ready).map = ready.map from rfl, ready_shadow] at hi; cases hi

/-! #### The management link and events -/

theorem witness_WriteTransferChooses : ready.mgmt.buf .A = .empty ∧ ready.mgmt.buf .B = .empty ∧
    ready.mgmt.mark = .A ∧ ready.targetAddress = 0x58 ∧ (0x59#7) ≠ ready.targetAddress ∧
    (withCmd 1 [] ready).mgmt.bufA ≠ .empty := by decide +kernel
/-- Three bytes in one event, and the same in two. -/
theorem witness_WriteTransferChooses_bytes :
    exec (.writeTransferStart ⟨some 0x58, [2]⟩) ready = .next (after (.writeTransferStart ⟨some 0x58, [2]⟩) ready) ∧
    (after (.writeTransferStart ⟨some 0x58, [2] ++ [3, 9]⟩) ready).mgmt.buf .A = .receiving [2, 3, 9] :=
  ⟨rfl, by decide +kernel⟩
theorem witness_FrameReceived :
    let s := after (.writeTransferStart ⟨some 0x58, [0x40]⟩) ready
    s.mgmt.buf .A = .receiving [0x40] ∧ s.mgmt.bufB = .empty ∧ ([0x40] : List Byte).length = 1 ∧
    (72#8).toNat ≤ 72 ∧ 72 < (73#8).toNat ∧ ([] : List Byte).length = (0#8).toNat ∧
    ([] : List Byte).length < (72#8).toNat := by decide +kernel
theorem witness_FrameReceived_refusing :
    let s := after (.frameComplete 2 [] 0) (after (.writeTransferStart ⟨some 0x58, [2, 0]⟩) ready)
    s.mgmt.bufA = .pending ⟨2, []⟩ 0 false ∧ s.mgmt.bufB = .empty ∧ s.mgmt.refusing = true := by
  decide +kernel
/-- A transfer of another target. -/
theorem witness_FrameReceived_ignored : (∀ b x, ready.mgmt.buf b ≠ .receiving x) ∧ ready.mgmt.refusing = false :=
  ⟨fun b x => by cases b <;> exact nofun, rfl⟩
/-- Two responses, of sequence numbers 255 and 0. -/
theorem witness_ReadTransferReturns :
    let s : State := { ready with mgmt := { ready.mgmt with
      bufA := .answered ⟨.ok, 2, 0, []⟩
      bufB := .answered ⟨.ok, 2, 255, []⟩ } }
    s.mgmt.buf .B = .answered ⟨.ok, 2, 255, []⟩ ∧ s.mgmt.buf BufId.B.other = .answered ⟨.ok, 2, 0, []⟩ ∧
    0 < (0#8 - 255#8).toNat ∧ (0#8 - 255#8).toNat < 128 ∧
    (after (.readTransfer (some 0x58) 4) s).mgmt.reading.map (fun r => (r.source, r.left.length)) =
      some (some .B, 1) := by decide +kernel
theorem witness_ReadTransferReturns_none : ∀ b r, ready.mgmt.buf b ≠ .answered r := by
  intro b r h; cases b <;> cases h
theorem witness_ExecutorTakes :
    let s : State := { ready with mgmt := { ready.mgmt with
      bufA := .pending ⟨2, []⟩ 0 true
      bufB := .pending ⟨1, []⟩ 255 true } }
    s.mgmt.executor = .idle ∧ s.mgmt.buf .B = .pending ⟨1, []⟩ 255 true ∧
    s.mgmt.buf BufId.B.other = .pending ⟨2, []⟩ 0 true ∧
    (after .executorTake s).handed 1 = some (.B, []) := by decide +kernel
theorem witness_IdentifyAndStatus : (withCmd 0x02 [] ready).mgmt.scan = [] ∧
    (withCmd 0x02 [] ready).handed 0x02 = some (.A, []) := by decide +kernel
/-- Eight owners read and one not, then that one. -/
theorem witness_IdentifyAndStatus_parts :
    let s := withCmd 0x02 [] ready
    let t := after (.status 8) s
    (s.mgmt.scan ++ ((statusParts s).drop s.mgmt.scan.length).take 8).length = 8 ∧
    t.handed 0x02 = some (.A, []) ∧
    (t.mgmt.scan ++ ((statusParts t).drop t.mgmt.scan.length).take 1).length = 9 := by decide +kernel
theorem witness_SetParamEffect : 4 = (byteAt [4, 255, 0] 0).toNat ∧ 255 = field [4, 255, 0] 1 2 ∧
    256 = field [4, 0, 1] 1 2 := by decide +kernel
theorem witness_EventReadEffect : 4 = (byteAt [4] 0).toNat ∧ 0 < overflowed.lost ∧
    (overflowed.records.drop 4).all (fun r => !r.isLost) = true := by decide +kernel

/-! #### The laws, in a part with a RESIDENT segment, a QUEUED one, a read held for it and one that waits -/

/-- Segment 5 RESIDENT in blocks 0 and 1, segment 6 QUEUED with one read held, a read looked up, TAKE_HEAD
waiting. -/
def lawful : State :=
  let s := mapped .shadow .hold ready
  { s with
    pending := [.takeHead]
    store := {
      sram := [(3, 1)]
      free := (List.finRange 512).drop 2
      segs := ((Vector.replicate 62 none).set 4 (some { seg .resident with blocks := [0, 1] })).set 5
        (some { seg .queued with held := 1 })
      residence := [4] }
    fill := { s.fill with queue := [5] }
    port := { s.port with
      tags := [2]
      held := [{ heldRead with seg := 5 }]
      arrival := 21
      looked := some (.read ⟨3, 0x40040, 32⟩ ⟨0, 4, 64, .shadow, .hold⟩) } }

theorem lawful_seg (i : SegId) : lawful.store.seg i =
    if i = 4 then some { seg .resident with blocks := [0, 1] }
    else if i = 5 then some { seg .queued with held := 1 } else none := by
  revert i; decide +kernel

theorem witness_MemoryLawKept : MemoryLaw lawful ∧ (∃ t, step lawful = .next t) :=
  ⟨by unfold MemoryLaw; decide +kernel, _, rfl⟩
theorem witness_QueueAndLinkLawsKept : EventsLaw lawful ∧ QueueLaw lawful ∧ StalledLaw lawful :=
  ⟨by unfold EventsLaw; decide +kernel, by unfold QueueLaw; decide +kernel, nofun⟩
theorem witness_StoreLawKept : StoreLaw lawful where
  blocks := by
    have h : lawful.store.allBlocks = (List.finRange 512).take 2 := by decide +kernel
    rw [h]
    simp only [lawful]
    exact List.perm_append_comm.trans (List.Perm.of_eq (List.take_append_drop 2 _))
  fit := by
    intro i r h; rw [lawful_seg] at h
    split at h
    · cases h; unfold SegRecord.BlocksFit; decide +kernel
    · split at h
      · cases h; unfold SegRecord.BlocksFit; decide +kernel
      · cases h
  resident := by
    refine ⟨by decide, fun i => ?_⟩
    rw [lawful_seg, show lawful.store.residence = [4] from rfl, List.mem_singleton]
    by_cases h : i = 4
    · simp [h, seg]
    · by_cases h5 : i = 5 <;> simp [h, h5, seg]
  queued := ⟨by decide, by
    intro i hi
    have : i = 5 := by simpa [lawful] using hi
    subst this
    exact ⟨_, lawful_seg 5, rfl⟩⟩
  current := trivial
theorem witness_PortLawKept : PortLaw lawful where
  distinct := by decide
  outstanding := by decide
  held := by decide
  names := by
    intro h hh
    have : h = { heldRead with seg := 5 } := by simpa [lawful] using hh
    subst this
    exact ⟨_, lawful_seg 5, .inl rfl⟩
  counts := by decide +kernel
  waits := by
    intro q h hq
    cases hq
    decide
theorem witness_MapLawsKept : EntriesLaw (overlaid .fault .hold (seg .absent)) ∧
    ActiveLaw (overlaid .fault .hold (seg .absent)) := by
  refine ⟨⟨fun i e h => ?_, fun i e h => ?_⟩, overlaid_activeLaw .fault .hold⟩
  · rw [(mapped_active _ _ _ i e h).2]; unfold MapEntry.Legal; decide
  · exact absurd ((ready_shadow i).symm.trans h) nofun

end Sys2Proof.Tests
end

section
/-! SUPPORT. The overlay map, one lemma per function: what validation, commit, lookup and the checks of an entry
answer. -/

namespace Sys2Proof.Machine

/-! ### Overlapping entries -/

theorem MapEntry.overlaps_iff (e f : MapEntry) :
    e.overlaps f = true ↔ e.base < f.base + f.size ∧ f.base < e.base + e.size := by
  simp [MapEntry.overlaps, Machine.overlaps]

theorem MapEntry.overlaps_comm (e f : MapEntry) : e.overlaps f = f.overlaps e := by
  rw [Bool.eq_iff_iff, e.overlaps_iff, f.overlaps_iff, and_comm]

/-- The search of R15 finds the lowest overlapping entry below an index (R15 note 3). -/
theorem Bank.overlapBelow_eq_some {bank : Bank} {i j : MapIndex} {e : MapEntry} :
    bank.overlapBelow i e = some j ↔ (j < i ∧ ∃ f, bank[j] = some f ∧ e.overlaps f = true) ∧
      ∀ k < j, ¬ (k < i ∧ ∃ f, bank[k] = some f ∧ e.overlaps f = true) := by
  rw [Bank.overlapBelow, ← Fin.find?_eq_find?_finRange, Fin.find?_eq_some_iff]
  refine and_congr ?_ (forall₂_congr fun k _ => ?_)
  · cases bank[j] <;> simp
  · cases bank[k] <;> simp

theorem Bank.overlapBelow_eq_none {bank : Bank} {i : MapIndex} {e : MapEntry} :
    bank.overlapBelow i e = none ↔ ∀ j, ¬ (j < i ∧ ∃ f, bank[j] = some f ∧ e.overlaps f = true) := by
  rw [Bank.overlapBelow, ← Fin.find?_eq_find?_finRange, Fin.find?_eq_none_iff]
  refine forall_congr' fun j => ?_
  cases bank[j] <;> simp

/-! ### Validation (R15) -/

theorem Bank.faultAt_invalid {bank : Bank} {i : MapIndex} (h : bank[i] = none) (st : Store) :
    bank.faultAt st i = none := by
  simp [Bank.faultAt, h]

/-- The three checks of a valid entry, in order, and the fault of the first that fails (R15). -/
theorem Bank.faultAt_valid {bank : Bank} {i : MapIndex} {e : MapEntry} (h : bank[i] = some e) (st : Store) :
    (st.seg e.seg = none ∧ bank.faultAt st i = some ⟨i, .undeclaredSegment, none⟩) ∨
    ∃ r, st.seg e.seg = some r ∧
      ((blocksFor r.length * 256 < e.offset + e.size ∧ bank.faultAt st i = some ⟨i, .beyondSegment, none⟩) ∨
        (e.offset + e.size ≤ blocksFor r.length * 256 ∧
          bank.faultAt st i = (bank.overlapBelow i e).map fun j => ⟨i, .overlap, some j⟩)) := by
  unfold Bank.faultAt
  rw [h]
  cases hr : st.seg e.seg with
  | none => exact .inl ⟨rfl, by simp [hr]⟩
  | some r =>
    refine .inr ⟨r, rfl, ?_⟩
    by_cases hb : blocksFor r.length * 256 < e.offset + e.size
    · exact .inl ⟨hb, by simp [hr, hb]⟩
    · exact .inr ⟨Nat.le_of_not_lt hb, by cases ho : bank.overlapBelow i e <;> simp [hr, hb, ho]⟩

/-- An index shows no fault exactly when its entry, if valid, passes the three checks (R15). -/
theorem Bank.faultAt_eq_none {bank : Bank} {st : Store} {i : MapIndex} :
    bank.faultAt st i = none ↔ ∀ e, bank[i] = some e →
      (∃ r, st.seg e.seg = some r ∧ e.offset + e.size ≤ blocksFor r.length * 256) ∧
        bank.overlapBelow i e = none := by
  cases h : bank[i] with
  | none => simp [Bank.faultAt_invalid h]
  | some e =>
    rcases Bank.faultAt_valid h st with ⟨hr, hf⟩ | ⟨r, hr, ⟨hb, hf⟩ | ⟨hb, hf⟩⟩
    · simp [hf, hr]
    · simp [hf, hr, hb]
    · simp [hf, hr, hb]

theorem Bank.validate_eq_some {bank : Bank} {st : Store} {f : CommitFault} :
    bank.validate st = some f ↔ ∃ i, bank.faultAt st i = some f ∧ ∀ j < i, bank.faultAt st j = none := by
  rw [Bank.validate, ← Fin.findSome?_eq_findSome?_finRange, Fin.findSome?_eq_some_iff]

theorem Bank.validate_eq_none {bank : Bank} {st : Store} :
    bank.validate st = none ↔ ∀ i, bank.faultAt st i = none := by
  rw [Bank.validate, ← Fin.findSome?_eq_findSome?_finRange, Fin.findSome?_eq_none_iff]

/-- Validation finds no fault exactly in a consistent bank (R15, R17). -/
theorem Bank.validate_eq_none_iff_consistent {bank : Bank} {st : Store} :
    bank.validate st = none ↔ bank.Consistent st := by
  simp only [Bank.validate_eq_none, Bank.faultAt_eq_none, Bank.overlapBelow_eq_none]
  constructor
  · intro h
    have apart : ∀ (i j : MapIndex) (e f : MapEntry), bank[i] = some e → bank[j] = some f → j < i →
        e.overlaps f = false := fun i j e f he hf hji =>
      Bool.eq_false_iff.mpr fun ho => (h i e he).2 j ⟨hji, f, hf, ho⟩
    refine ⟨fun i j e f he hf hij => ?_, fun i e he => (h i e he).1⟩
    rcases Nat.lt_or_gt_of_ne (Fin.val_ne_of_ne hij) with hlt | hgt
    · rw [MapEntry.overlaps_comm]; exact apart j i f e hf he hlt
    · exact apart i j e f he hf hgt
  · rintro ⟨apart, inside⟩ i e he
    refine ⟨inside i e he, ?_⟩
    rintro j ⟨hji, f, hf, ho⟩
    exact Bool.eq_false_iff.mp (apart i j e f he hf (Ne.symm (Fin.ne_of_lt hji))) ho

/-! ### Commit (R15 to R18) -/

theorem nextGeneration_eq (g : BitVec 16) :
    nextGeneration g = if g.toNat = 65535 then 1 else g + 1 := by
  simp only [nextGeneration, ← BitVec.toNat_inj]; rfl

/-- A commit installs a consistent SHADOW, or reports the first fault of one that is not (R15 to R18). -/
theorem MapUnit.commit_spec (m : MapUnit) (st : Store) :
    (m.shadow.Consistent st ∧
      m.commit st = .ok { active := m.shadow, shadow := m.shadow, generation := nextGeneration m.generation }) ∨
    (¬ m.shadow.Consistent st ∧ ∃ f, m.shadow.validate st = some f ∧ m.commit st = .error f) := by
  rw [← Bank.validate_eq_none_iff_consistent]
  cases h : m.shadow.validate st with
  | none => exact .inl ⟨rfl, by simp [MapUnit.commit, h]⟩
  | some f => exact .inr ⟨nofun, f, rfl, by simp [MapUnit.commit, h]⟩

/-! ### Lookup (R4, R5) -/

theorem MapEntry.contains_iff (e : MapEntry) (addr len : Nat) :
    e.contains addr len = true ↔ e.base ≤ addr ∧ addr + len ≤ e.base + e.size := by
  simp [MapEntry.contains]

theorem Bank.hitAt_eq_some {bank : Bank} {addr len : Nat} {i : MapIndex} {h : Hit} :
    bank.hitAt addr len i = some h ↔ ∃ e, bank[i] = some e ∧ (e.base ≤ addr ∧ addr + len ≤ e.base + e.size) ∧
      h = ⟨i, e.seg, addr - e.base + e.offset, e.wpol, e.apol⟩ := by
  unfold Bank.hitAt
  cases bank[i] with
  | none => simp
  | some e => simp [MapEntry.contains_iff, @eq_comm _ h]

theorem Bank.hitAt_eq_none {bank : Bank} {addr len : Nat} {i : MapIndex} :
    bank.hitAt addr len i = none ↔
      ∀ e, bank[i] = some e → ¬ (e.base ≤ addr ∧ addr + len ≤ e.base + e.size) := by
  unfold Bank.hitAt
  cases bank[i] with
  | none => simp
  | some e => simp [← MapEntry.contains_iff]

theorem MapUnit.lookup_eq_some {m : MapUnit} {addr len : Nat} {h : Hit} :
    m.lookup addr len = some h ↔
      ∃ i, m.active.hitAt addr len i = some h ∧ ∀ j < i, m.active.hitAt addr len j = none := by
  rw [MapUnit.lookup, ← Fin.findSome?_eq_findSome?_finRange, Fin.findSome?_eq_some_iff]

theorem MapUnit.lookup_eq_none {m : MapUnit} {addr len : Nat} :
    m.lookup addr len = none ↔ ∀ i, m.active.hitAt addr len i = none := by
  rw [MapUnit.lookup, ← Fin.findSome?_eq_findSome?_finRange, Fin.findSome?_eq_none_iff]

/-- Two entries that contain one request of at least a byte overlap. -/
theorem MapEntry.overlaps_of_contain {e f : MapEntry} {addr len : Nat} (hlen : 0 < len)
    (he : e.base ≤ addr ∧ addr + len ≤ e.base + e.size) (hf : f.base ≤ addr ∧ addr + len ≤ f.base + f.size) :
    e.overlaps f = true := by
  rw [MapEntry.overlaps_iff]; omega

/-! ### The checks of an entry (R10) -/

/-- The arguments name an index, a segment and two policies. -/
def RawEntry.Names (r : RawEntry) (i : MapIndex) (seg : SegId) (w : WritePolicy) (a : AbsencePolicy) : Prop :=
  r.index = i.val ∧ r.seg = segNum seg ∧ r.wpol = w.code.toNat ∧ r.apol = a.code.toNat

/-- The entry that the arguments describe once they name a segment and two policies. -/
def RawEntry.entry (r : RawEntry) (seg : SegId) (w : WritePolicy) (a : AbsencePolicy) : MapEntry :=
  ⟨r.base, r.size, seg, r.offset, w, a⟩

/-- An entry that passes the checks is one the arguments name, and legal (R10). -/
theorem RawEntry.check_eq_some {r : RawEntry} {i : MapIndex} {e : MapEntry} (h : r.check = some (i, e)) :
    ∃ seg w a, r.Names i seg w a ∧ e = r.entry seg w a ∧ e.Legal := by
  unfold RawEntry.check at h
  split at h
  · split at h
    · rename_i seg w a hs hw ha
      split at h
      · cases h
        exact ⟨seg, w, a, ⟨rfl, segId?_eq_some.mp hs, (writePolicy?_eq_some _ _).mp hw,
          (absencePolicy?_eq_some _ _).mp ha⟩, rfl, ‹_›⟩
      · cases h
    · cases h
  · cases h

/-- An entry that the arguments name and that is legal passes (R10). -/
theorem RawEntry.check_of_legal {r : RawEntry} {i : MapIndex} {seg : SegId} {w : WritePolicy} {a : AbsencePolicy}
    (h : r.Names i seg w a) (hl : (r.entry seg w a).Legal) : r.check = some (i, r.entry seg w a) := by
  obtain ⟨hi, hs, hw, ha⟩ := h
  have hlt : r.index < 32 := hi ▸ i.isLt
  have hx : (⟨r.index, hlt⟩ : MapIndex) = i := Fin.ext hi
  simp only [RawEntry.check, dif_pos hlt, segId?_eq_some.mpr hs, (writePolicy?_eq_some _ _).mpr hw,
    (absencePolicy?_eq_some _ _).mpr ha, hx]
  exact if_pos hl

/-- Where nothing the arguments name is legal the checks fail (R10). -/
theorem RawEntry.check_of_not_legal {r : RawEntry}
    (h : ∀ i seg w a, r.Names i seg w a → ¬ (r.entry seg w a).Legal) : r.check = none := by
  cases hc : r.check with
  | none => rfl
  | some x =>
    obtain ⟨seg, w, a, hn, he, hl⟩ := RawEntry.check_eq_some hc
    exact absurd (he ▸ hl) (h x.1 seg w a hn)

/-- An entry write into SHADOW, or none where a check fails (R10, R21). -/
theorem MapUnit.writeEntry_spec (m : MapUnit) (r : RawEntry) :
    (∃ i seg w a, r.Names i seg w a ∧ (r.entry seg w a).Legal ∧
      m.writeEntry r = some { m with shadow := m.shadow.put i (some (r.entry seg w a)) }) ∨
    ((∀ i seg w a, r.Names i seg w a → ¬ (r.entry seg w a).Legal) ∧ m.writeEntry r = none) := by
  unfold MapUnit.writeEntry
  by_cases h : ∃ i seg w a, r.Names i seg w a ∧ (r.entry seg w a).Legal
  · obtain ⟨i, seg, w, a, hn, hl⟩ := h
    exact .inl ⟨i, seg, w, a, hn, hl, by rw [RawEntry.check_of_legal hn hl]⟩
  · have h' : ∀ i seg w a, r.Names i seg w a → ¬ (r.entry seg w a).Legal := fun i seg w a hn hl =>
      h ⟨i, seg, w, a, hn, hl⟩
    exact .inr ⟨h', by rw [RawEntry.check_of_not_legal h']⟩

end Sys2Proof.Machine
end

section
/-! PROOFS. The laws of the overlay map: what the store keeps for the ACTIVE bank (R17), one lemma per operation, and
that every command keeps the entries legal (R2) and the law of ACTIVE. -/

namespace Sys2Proof.Machine

/-! ### Declared lengths -/

/-- A segment declared in one store is declared with the same length in another. -/
def Store.KeepsLength (st st' : Store) (i : SegId) : Prop :=
  ∀ r, st.seg i = some r → ∃ r', st'.seg i = some r' ∧ r'.length = r.length

/-- Every declared segment stays declared with its length: all that the law of ACTIVE asks of the store (R17). -/
def Store.KeepsLengths (st st' : Store) : Prop := ∀ i, st.KeepsLength st' i

theorem Store.KeepsLengths.of_seg_eq {st st' : Store} (h : ∀ i, st'.seg i = st.seg i) : st.KeepsLengths st' :=
  fun i r hr => ⟨r, (h i).trans hr, rfl⟩

theorem Store.KeepsLengths.refl (st : Store) : st.KeepsLengths st := .of_seg_eq fun _ => rfl

theorem Store.KeepsLengths.trans {st st' st'' : Store} (h : st.KeepsLengths st') (h' : st'.KeepsLengths st'') :
    st.KeepsLengths st'' := fun i r hr => by
  obtain ⟨r', hr', hl⟩ := h i r hr
  obtain ⟨r'', hr'', hl'⟩ := h' i r' hr'
  exact ⟨r'', hr'', hl'.trans hl⟩

theorem Store.KeepsLengths.touch {st st' : Store} (h : st.KeepsLengths st') (i : SegId) :
    st.KeepsLengths (st'.touch i) := h.trans (.of_seg_eq fun _ => rfl)

/-- A consistent bank stays so while the segments it names keep their lengths (R17). -/
theorem Bank.Consistent.mono {bank : Bank} {st st' : Store} (h : bank.Consistent st)
    (hk : ∀ (i : MapIndex) (e : MapEntry), bank[i] = some e → st.KeepsLength st' e.seg) : bank.Consistent st' := by
  refine ⟨h.1, fun i e he => ?_⟩
  obtain ⟨r, hr, hin⟩ := h.2 i e he
  obtain ⟨r', hr', hl⟩ := hk i e he r hr
  exact ⟨r', hr', hl ▸ hin⟩

theorem Store.update_keepsLengths (st : Store) (i : SegId) {f : SegRecord → SegRecord}
    (hf : ∀ r, (f r).length = r.length) : st.KeepsLengths (st.update i f) := by
  intro j r hr
  by_cases h : j = i
  · subst h; exact ⟨f r, by simp [hr], hf r⟩
  · exact ⟨r, by simp [Store.seg_update, h, hr], rfl⟩

theorem Store.declare_keepsLengths {st : Store} {i : SegId} (hi : st.seg i = none) (r : Option SegRecord) :
    st.KeepsLengths (st.setSeg i r) := by
  intro j r' hr
  have h : j ≠ i := by rintro rfl; simp [hi] at hr
  exact ⟨r', by simp [Store.seg_setSeg, h, hr], rfl⟩

theorem Store.freeBlocks_keepsLengths (st : Store) (i : SegId) : st.KeepsLengths (st.freeBlocks i) :=
  Store.update_keepsLengths { st with free := st.free ++ st.blocksOf i } i fun _ => rfl

theorem Store.vacate_keepsLengths (st : Store) (i : SegId) : st.KeepsLengths (st.vacate i) :=
  (st.freeBlocks_keepsLengths i).trans (.of_seg_eq fun _ => rfl)

theorem Store.evict_keepsLengths (st : Store) (i : SegId) : st.KeepsLengths (st.evict i) :=
  (st.vacate_keepsLengths i).trans (Store.update_keepsLengths _ i fun _ => rfl)

theorem Store.evictUntil_keepsLengths (n : Nat) (cause : SegId) (is : List SegId) (st : Store) :
    st.KeepsLengths (Store.evictUntil n cause is st).1 := by
  induction is generalizing st with
  | nil => exact .refl st
  | cons i is ih =>
    simp only [Store.evictUntil]
    split
    · exact .refl st
    · exact (st.evict_keepsLengths i).trans (ih _)

theorem Store.allocate_keepsLengths {st st' : Store} {n : Nat} {cause : SegId} {bs : List Block} {evs : List Event}
    (h : st.allocate n cause = some (bs, st', evs)) : st.KeepsLengths st' := by
  obtain ⟨-, st1, he, -, rfl⟩ := Store.allocate_some h
  have h1 : st.KeepsLengths st1 := by simpa [he] using st.evictUntil_keepsLengths n cause st.candidates
  exact h1.trans (.of_seg_eq fun _ => rfl)

theorem Store.failSegment_keepsLengths (st : Store) (i : SegId) (reason : FailReason) :
    st.KeepsLengths (st.failSegment i reason) :=
  (st.freeBlocks_keepsLengths i).trans (Store.update_keepsLengths _ i fun _ => rfl)

theorem Store.undoFill_keepsLengths (st : Store) (i : SegId) (prior : Prior) :
    st.KeepsLengths (st.undoFill i prior) :=
  (st.freeBlocks_keepsLengths i).trans (Store.update_keepsLengths _ i fun _ => rfl)

theorem Store.verify_keepsLengths (st : Store) (i : SegId) : st.KeepsLengths (st.verify i) := by
  unfold Store.verify
  refine .touch (.trans (.of_seg_eq fun _ => ?_) (Store.update_keepsLengths _ i fun _ => ?_)) i <;> rfl

theorem Store.overlayWrite_keepsLengths (st : Store) (i : SegId) (r : SegRecord) (o : Nat) (data : List Byte) :
    st.KeepsLengths (st.overlayWrite i r o data) := by
  unfold Store.overlayWrite
  refine .touch (.trans (.of_seg_eq fun _ => ?_) (Store.update_keepsLengths _ i fun _ => ?_)) i <;> rfl

/-! ### The two laws across an event -/

/-- An event keeps the entries legal and the law of ACTIVE (R2, R17). -/
structure KeepsMapLaws (s t : State) : Prop where
  entries : EntriesLaw s → EntriesLaw t
  active : ActiveLaw s → ActiveLaw t

theorem KeepsMapLaws.refl (s : State) : KeepsMapLaws s s := ⟨id, id⟩

theorem KeepsMapLaws.trans {s t u : State} (h : KeepsMapLaws s t) (h' : KeepsMapLaws t u) : KeepsMapLaws s u :=
  ⟨h'.entries ∘ h.entries, h'.active ∘ h.active⟩

/-- An event that leaves the map alone keeps the laws while the declared segments keep their lengths. -/
theorem KeepsMapLaws.of_lengths {s t : State} (hm : t.map = s.map) (hk : s.store.KeepsLengths t.store) :
    KeepsMapLaws s t where
  entries h := by unfold EntriesLaw; rw [hm]; exact h
  active h := by unfold ActiveLaw; rw [hm]; exact h.mono fun _ e _ => hk e.seg

/-- An event that leaves the map and the store alone. -/
theorem KeepsMapLaws.of_same {s t : State} (hm : t.map = s.map) (hs : t.store = s.store) : KeepsMapLaws s t :=
  .of_lengths hm (hs ▸ .refl _)

/-- What comes after an event that leaves the map alone and keeps the declared lengths. -/
theorem KeepsMapLaws.after {s s' t : State} (h : KeepsMapLaws s' t) (hm : s'.map = s.map)
    (hk : s.store.KeepsLengths s'.store) : KeepsMapLaws s t := (KeepsMapLaws.of_lengths hm hk).trans h

theorem Bank.invalid_getElem (i : MapIndex) : Bank.invalid[i] = none := by simp [Bank.invalid]

theorem Bank.invalid_legal : Bank.Legal Bank.invalid := fun i _ h => nomatch (Bank.invalid_getElem i).symm.trans h

theorem Bank.invalid_consistent (st : Store) : Bank.invalid.Consistent st :=
  ⟨fun i _ _ _ h => (nomatch (Bank.invalid_getElem i).symm.trans h),
    fun i _ h => (nomatch (Bank.invalid_getElem i).symm.trans h)⟩

/-- The map unit at its reset value meets both laws whatever the store holds (R22). -/
theorem mapLaws_of_reset {s : State} (h : s.map = MapUnit.reset) : EntriesLaw s ∧ ActiveLaw s := by
  unfold EntriesLaw ActiveLaw
  rw [h]
  exact ⟨⟨Bank.invalid_legal, Bank.invalid_legal⟩, Bank.invalid_consistent _⟩

theorem KeepsMapLaws.of_reset {s t : State} (h : t.map = MapUnit.reset) : KeepsMapLaws s t :=
  ⟨fun _ => (mapLaws_of_reset h).1, fun _ => (mapLaws_of_reset h).2⟩

/-- A bank with a legal entry, or none, put at an index stays legal. -/
theorem Bank.Legal.put {bank : Bank} (h : bank.Legal) (i : MapIndex) {e : Option MapEntry}
    (he : ∀ x, e = some x → x.Legal) : (bank.put i e).Legal := by
  intro j x hx
  rw [Bank.getElem_put] at hx
  split at hx
  · exact he x hx
  · exact h j x hx

/-- A change of SHADOW alone keeps the laws where it keeps SHADOW legal. -/
theorem KeepsMapLaws.of_shadow {s : State} {bank : Bank} (h : EntriesLaw s → bank.Legal) :
    KeepsMapLaws s { s with map := { s.map with shadow := bank } } :=
  ⟨fun hs => ⟨hs.1, h hs⟩, id⟩

/-- An entry write of MAP_WRITE or of start-up keeps the laws (R10, R148). -/
theorem KeepsMapLaws.of_writeEntry {s : State} {r : RawEntry} {m : MapUnit} (h : s.map.writeEntry r = some m) :
    KeepsMapLaws s { s with map := m } := by
  rcases s.map.writeEntry_spec r with ⟨i, seg, w, a, -, hl, hw⟩ | ⟨-, hw⟩
  · cases hw.symm.trans h
    exact .of_shadow fun hs => hs.2.put i fun x hx => by cases hx; exact hl
  · cases hw.symm.trans h

/-- A commit that succeeds keeps the laws: what it installs has been validated (R16, R17). -/
theorem KeepsMapLaws.of_commit {s : State} {m : MapUnit} (h : s.map.commit s.store = .ok m) :
    KeepsMapLaws s { s with map := m } := by
  rcases s.map.commit_spec s.store with ⟨hc, hm⟩ | ⟨-, f, -, hm⟩
  · cases hm.symm.trans h
    exact ⟨fun hs => ⟨hs.2, hs.2⟩, fun _ => hc⟩
  · cases hm.symm.trans h

end Sys2Proof.Machine
end

section
/-! PROOFS. Every command keeps the laws of the map: one lemma per operation, then one per command. -/

namespace Sys2Proof.Machine

/-! ### Host presentations -/

theorem refuseRead_keepsMapLaws (q : ReadRequest) (reason : AccessFault) (seg : Option SegId) (s : State) :
    KeepsMapLaws s (refuseRead q reason seg s) := .of_same rfl rfl

theorem enqueueFill_keepsMapLaws (s : State) (i : SegId) : KeepsMapLaws s (s.enqueueFill i) :=
  .of_lengths rfl (Store.update_keepsLengths _ i fun _ => rfl)

theorem requestFill_keepsMapLaws (s : State) (i : SegId) : KeepsMapLaws s (s.requestFill i) := by
  unfold State.requestFill
  split
  · exact enqueueFill_keepsMapLaws s i
  · exact .refl s

theorem admitRead_keepsMapLaws (s : State) (q : ReadRequest) : KeepsMapLaws s (s.admitRead q) := .of_same rfl rfl

theorem readDownstream_keepsMapLaws (q : ReadRequest) (seg request : Option SegId) (s : State) :
    KeepsMapLaws s (readDownstream q seg request s) := by
  unfold readDownstream
  split
  · exact refuseRead_keepsMapLaws ..
  · split
    · exact refuseRead_keepsMapLaws ..
    · split
      · exact (admitRead_keepsMapLaws s q).trans (requestFill_keepsMapLaws ..)
      · exact admitRead_keepsMapLaws s q

theorem emit_keepsMapLaws (s : State) (o : Output) : KeepsMapLaws s (s.emit o) := .of_same rfl rfl

theorem holdRead_keepsMapLaws (s : State) (q : ReadRequest) (h : Hit) : KeepsMapLaws s (s.holdRead q h) :=
  .of_lengths rfl (Store.update_keepsLengths _ h.seg fun _ => rfl)

theorem parkRead_keepsMapLaws (q : ReadRequest) (h : Hit) (absent : Bool) (s : State) :
    KeepsMapLaws s (parkRead q h absent s) := by
  unfold parkRead
  split
  · exact emit_keepsMapLaws ..
  · split
    · exact emit_keepsMapLaws ..
    · split
      · exact (holdRead_keepsMapLaws s q h).trans (enqueueFill_keepsMapLaws ..)
      · exact holdRead_keepsMapLaws s q h

theorem routeHit_keepsMapLaws (q : ReadRequest) (h : Hit) (s : State) : KeepsMapLaws s (routeHit q h s) := by
  unfold routeHit
  split
  · exact readDownstream_keepsMapLaws ..
  · split
    · exact .of_lengths rfl ((Store.KeepsLengths.refl _).touch _)
    · exact parkRead_keepsMapLaws ..
    · exact refuseRead_keepsMapLaws ..
    · exact parkRead_keepsMapLaws ..
    · exact readDownstream_keepsMapLaws ..
    · exact readDownstream_keepsMapLaws ..
    · exact readDownstream_keepsMapLaws ..
    · exact refuseRead_keepsMapLaws ..

theorem setLooked_keepsMapLaws (s : State) (p : Option Looked) : KeepsMapLaws s (s.setLooked p) :=
  .of_same rfl rfl

theorem acceptRead_keepsMapLaws (q : ReadRequest) {onHit : Hit → State → State} (s : State)
    (hh : ∀ h, KeepsMapLaws s (onHit h s)) : KeepsMapLaws s (acceptRead q onHit s) := by
  unfold acceptRead
  split
  · exact emit_keepsMapLaws ..
  · split
    · exact refuseRead_keepsMapLaws ..
    · split
      · exact emit_keepsMapLaws ..
      · split
        · exact readDownstream_keepsMapLaws ..
        · exact hh _

theorem presentRead_keepsMapLaws (q : ReadRequest) (part : PresentPart) (s : State) :
    KeepsMapLaws s (presentRead q part s) := by
  rcases presentRead_spec q part s with ⟨-, -, e⟩ | ⟨-, -, e⟩ | ⟨h, -, -, e⟩ | e <;> rw [e]
  · exact acceptRead_keepsMapLaws q s fun h => routeHit_keepsMapLaws q h s
  · exact acceptRead_keepsMapLaws q s fun h => setLooked_keepsMapLaws ..
  · exact (setLooked_keepsMapLaws s none).trans (routeHit_keepsMapLaws ..)
  · exact .refl s

theorem refuseWrite_keepsMapLaws (addr len : Nat) (reason : AccessFault) (seg : Option SegId) (s : State) :
    KeepsMapLaws s (refuseWrite addr len reason seg s) := .of_same rfl rfl

theorem admitWrite_keepsMapLaws (addr : Nat) (data : List Byte) (seg : Option SegId) (s : State) :
    KeepsMapLaws s (admitWrite addr data seg s) := by
  unfold admitWrite
  split
  · exact refuseWrite_keepsMapLaws ..
  · split
    · exact refuseWrite_keepsMapLaws ..
    · split
      · exact emit_keepsMapLaws ..
      · exact .of_same rfl rfl

theorem shadowWrite_keepsMapLaws (addr : Nat) (data : List Byte) (h : Hit) (s : State) :
    KeepsMapLaws s (shadowWrite addr data h s) := by
  unfold shadowWrite
  split
  · split
    · exact .of_lengths rfl (Store.overlayWrite_keepsLengths _ _ _ _ _)
    · exact refuseWrite_keepsMapLaws ..
  · exact refuseWrite_keepsMapLaws ..

theorem routeWriteHit_keepsMapLaws (addr : Nat) (data : List Byte) (h : Hit) (s : State) :
    KeepsMapLaws s (routeWriteHit addr data h s) := by
  unfold routeWriteHit
  split
  · exact .of_lengths rfl (Store.update_keepsLengths _ _ fun _ => rfl)
  · exact admitWrite_keepsMapLaws ..
  · exact shadowWrite_keepsMapLaws ..
  · exact refuseWrite_keepsMapLaws ..

theorem lookWriteHit_keepsMapLaws (addr : Nat) (data : List Byte) (h : Hit) (s : State) :
    KeepsMapLaws s (lookWriteHit addr data h s) := by
  unfold lookWriteHit
  split
  · exact setLooked_keepsMapLaws ..
  · exact routeWriteHit_keepsMapLaws ..

theorem acceptWrite_keepsMapLaws (addr : Nat) (data : List Byte) {onHit : Hit → State → State} (s : State)
    (hh : ∀ h, KeepsMapLaws s (onHit h s)) : KeepsMapLaws s (acceptWrite addr data onHit s) := by
  unfold acceptWrite
  split
  · exact emit_keepsMapLaws ..
  · split
    · exact refuseWrite_keepsMapLaws ..
    · split
      · exact admitWrite_keepsMapLaws ..
      · exact hh _

theorem presentWrite_keepsMapLaws (addr : Nat) (data : List Byte) (part : PresentPart) (s : State) :
    KeepsMapLaws s (presentWrite addr data part s) := by
  rcases presentWrite_spec addr data part s with ⟨-, -, e⟩ | ⟨-, -, e⟩ | ⟨h, -, -, e⟩ | e <;> rw [e]
  · exact acceptWrite_keepsMapLaws addr data s fun h => routeWriteHit_keepsMapLaws ..
  · exact acceptWrite_keepsMapLaws addr data s fun h => lookWriteHit_keepsMapLaws ..
  · exact (setLooked_keepsMapLaws s none).trans (routeWriteHit_keepsMapLaws ..)
  · exact .refl s

/-! ### Fills -/

theorem failFill_keepsMapLaws (i : SegId) (reason : FailReason) (s : State) :
    KeepsMapLaws s (failFill i reason s) :=
  .of_lengths rfl ((Store.failSegment_keepsLengths _ i reason).trans (Store.update_keepsLengths _ i fun _ => rfl))

theorem completeFill_keepsMapLaws (i : SegId) (origin : Origin) (s : State) :
    KeepsMapLaws s (completeFill i origin s) := .of_lengths rfl (Store.verify_keepsLengths _ _)

theorem undoFill_keepsMapLaws (i : SegId) (prior : Prior) (s : State) : KeepsMapLaws s (undoFill i prior s).1 := by
  have hu := s.store.undoFill_keepsLengths i prior
  unfold undoFill
  dsimp only
  split
  · exact .of_lengths rfl hu
  · split
    · exact .of_lengths rfl (hu.trans (Store.update_keepsLengths _ i fun _ => rfl))
    · exact .of_lengths rfl (hu.trans (Store.update_keepsLengths _ i fun _ => rfl))

theorem enterFilling_keepsMapLaws {s : State} {i : SegId} {n : Nat} {bs : List Block} {st : Store}
    {evs : List Event} (h : s.store.allocate n i = some (bs, st, evs)) (origin : Origin) :
    KeepsMapLaws s (s.enterFilling i origin bs st evs) :=
  .of_lengths rfl ((Store.allocate_keepsLengths h).trans (Store.update_keepsLengths _ i fun _ => rfl))

theorem setEngine_keepsMapLaws (s : State) (e : Engine) : KeepsMapLaws s (s.setEngine e) := .of_same rfl rfl

theorem requestChunk_keepsMapLaws (s : State) : KeepsMapLaws s s.requestChunk := by
  unfold State.requestChunk
  split <;> exact .of_same rfl rfl

theorem startCatalogFill_keepsMapLaws (i : SegId) (r : SegRecord) (image : Nat) (origin : Origin) (s : State) :
    KeepsMapLaws s (startCatalogFill i r image origin s) := by
  unfold startCatalogFill
  split
  · exact failFill_keepsMapLaws ..
  · split
    · exact failFill_keepsMapLaws ..
    · split
      · exact failFill_keepsMapLaws ..
      · rename_i h
        exact ((enterFilling_keepsMapLaws h origin).trans (setEngine_keepsMapLaws ..)).trans
          (requestChunk_keepsMapLaws _)

theorem takeHead_keepsMapLaws (s : State) : KeepsMapLaws s (takeHead s) := by
  unfold takeHead
  split
  · dsimp only
    split
    · split
      · exact .of_lengths rfl (Store.update_keepsLengths _ _ fun _ => rfl)
      · exact (startCatalogFill_keepsMapLaws ..).after rfl (.refl _)
    · exact .of_same rfl rfl
  · exact .refl s

theorem beginHostFill_keepsMapLaws (i : SegId) (origin : Origin) (s : State) :
    KeepsMapLaws s (beginHostFill i origin s).state := by
  unfold beginHostFill
  dsimp only
  split
  · exact failFill_keepsMapLaws ..
  · rename_i h
    exact (enterFilling_keepsMapLaws h origin).trans (setEngine_keepsMapLaws ..)

theorem chunkArrived_keepsMapLaws (data : List Byte) (s : State) : KeepsMapLaws s (chunkArrived data s).1 := by
  have hk : ∀ sram, s.store.KeepsLengths { s.store with sram := sram } := fun _ => .of_seg_eq fun _ => rfl
  unfold chunkArrived
  split
  · dsimp only
    split
    · dsimp only
      exact (requestChunk_keepsMapLaws _).after rfl (hk _)
    · split
      · exact (completeFill_keepsMapLaws ..).after rfl (hk _)
      · exact (failFill_keepsMapLaws ..).after rfl (hk _)
  all_goals exact .refl s

theorem stallFill_keepsMapLaws (s : State) : KeepsMapLaws s (stallFill s).1 := by
  have hw : KeepsMapLaws s s.withdrawChunk := .of_same rfl rfl
  unfold stallFill
  split
  · exact hw.trans (failFill_keepsMapLaws ..)
  all_goals exact .refl s

/-! ### Catalog loader and start-up sequencer -/

theorem setOutcome_keepsMapLaws (s : State) (o : StartOutcome) : KeepsMapLaws s (s.setOutcome o) := by
  unfold State.setOutcome
  split <;> exact .of_same rfl rfl

theorem endStartup_keepsMapLaws (s : State) : KeepsMapLaws s (endStartup s) := .of_same rfl rfl

theorem enterMap_keepsMapLaws (s : State) : KeepsMapLaws s s.enterMap := .of_same rfl rfl

theorem enterPreload_keepsMapLaws (s : State) : KeepsMapLaws s s.enterPreload := .of_same rfl rfl

theorem writeBootEntry_keepsMapLaws (s : State) (e : RawEntry) : KeepsMapLaws s (writeBootEntry s e) := by
  unfold writeBootEntry
  split
  · exact .of_writeEntry ‹_›
  · exact (setOutcome_keepsMapLaws ..).after rfl (.refl _)

theorem mapEvent_keepsMapLaws (s : State) : KeepsMapLaws s (mapEvent s) := by
  unfold mapEvent
  split
  · exact (writeBootEntry_keepsMapLaws s _).trans (.of_same rfl rfl)
  · exact enterMap_keepsMapLaws s

theorem requestPreload_keepsMapLaws (id : Byte) (s : State) : KeepsMapLaws s (requestPreload id s).1 := by
  unfold requestPreload
  split
  · exact .refl s
  · split
    · exact .refl s
    · split
      · exact .refl s
      · exact startCatalogFill_keepsMapLaws ..
      · exact startCatalogFill_keepsMapLaws ..
      · exact .refl s

theorem preloadEvent_keepsMapLaws (s : State) : KeepsMapLaws s (preloadEvent s) := by
  unfold preloadEvent
  split
  · split
    · rename_i id _ _
      have hr := requestPreload_keepsMapLaws id s
      split
      · rename_i e; rw [e] at hr; exact hr.trans (.of_same rfl rfl)
      · rename_i e; rw [e] at hr; exact hr
    · exact enterPreload_keepsMapLaws s
  · exact .refl s

theorem commitStartup_keepsMapLaws (s : State) : KeepsMapLaws s (commitStartup s) := by
  unfold commitStartup
  split
  · exact .of_same rfl rfl
  · split
    · exact (KeepsMapLaws.of_commit ‹_›).trans (.of_same rfl rfl)
    · exact (setOutcome_keepsMapLaws s _).trans (.of_same rfl rfl)

theorem sequencerEvent_keepsMapLaws (s : State) : KeepsMapLaws s (sequencerEvent s) := by
  rcases sequencerEvent_spec s with ⟨-, e⟩ | ⟨-, e⟩ | ⟨-, -, e⟩ | ⟨-, -, e⟩ | ⟨-, -, -, e⟩ <;> rw [e]
  · exact mapEvent_keepsMapLaws s
  · exact preloadEvent_keepsMapLaws s
  · exact endStartup_keepsMapLaws s
  · exact commitStartup_keepsMapLaws s
  · exact .refl s

theorem respond_keepsMapLaws (s : State) (b : BufId) (st : Status) (p : List Byte) :
    KeepsMapLaws s (s.respond b st p) := .of_same rfl rfl

theorem respondLong_keepsMapLaws (s : State) (phase : Phase) (st : Status) (p : List Byte) :
    KeepsMapLaws s (s.respondLong phase st p) := by
  unfold State.respondLong
  split
  · split
    · exact respond_keepsMapLaws ..
    · exact .refl s
  · exact .refl s

theorem catalogEnd_keepsMapLaws (result : CatalogResult) (s : State) : KeepsMapLaws s (catalogEnd result s) := by
  unfold catalogEnd
  refine KeepsMapLaws.trans (t := { s with startup := { s.startup with catalog := none } }) (.of_same rfl rfl) ?_
  dsimp only
  split
  · split
    · exact enterMap_keepsMapLaws _
    all_goals exact (setOutcome_keepsMapLaws ..).trans (enterMap_keepsMapLaws _)
  · split <;> exact respondLong_keepsMapLaws ..

theorem requestCatalog_keepsMapLaws (s : State) : KeepsMapLaws s (requestCatalog s) := by
  unfold requestCatalog
  split
  · split
    · exact .of_same rfl rfl
    · exact catalogEnd_keepsMapLaws ..
    · exact catalogEnd_keepsMapLaws ..
  · exact .refl s

theorem readCatalog_keepsMapLaws (c : CatalogRead) (s : State) : KeepsMapLaws s (readCatalog c s) :=
  (requestCatalog_keepsMapLaws _).after rfl (.refl _)

theorem applyDescriptor_keepsMapLaws (acc : State × Nat × Nat) (bs : List Byte) :
    KeepsMapLaws acc.1 (applyDescriptor acc bs).1 := by
  obtain ⟨s, m, k⟩ := acc
  unfold applyDescriptor
  dsimp only
  split
  · exact .of_same rfl rfl
  · split
    · exact .of_same rfl rfl
    · split
      · rename_i st h
        refine .of_lengths rfl ?_
        unfold Store.declareCatalog at h
        split at h
        · cases h
        · cases h; exact Store.declare_keepsLengths ‹_› _
      · exact .of_same rfl rfl

theorem applyNext_keepsMapLaws (s : State) : KeepsMapLaws s (applyNext s) := by
  unfold applyNext
  split
  · rename_i next d rest m k _
    have hd := applyDescriptor_keepsMapLaws (s, m, k) d
    split
    · rename_i e _; rw [e] at hd; exact hd.trans (catalogEnd_keepsMapLaws ..)
    · rename_i e _; rw [e] at hd; exact hd.trans (.of_same rfl rfl)
  · exact catalogEnd_keepsMapLaws ..
  all_goals exact .refl s

theorem nextEvent_keepsMapLaws (s : State) : KeepsMapLaws s (nextEvent s) := by
  rcases nextEvent_spec s with ⟨_, _, _, _, -, e⟩ | ⟨-, e⟩ <;> rw [e]
  · exact applyNext_keepsMapLaws s
  · exact sequencerEvent_keepsMapLaws s

theorem goOn_keepsMapLaws (n : Nat) (s : State) : KeepsMapLaws s (goOn n s) := by
  induction n generalizing s with
  | zero => exact .refl s
  | succ n ih => exact (nextEvent_keepsMapLaws s).trans (ih _)

theorem catalogArrived_keepsMapLaws (data : List Byte) (s : State) : KeepsMapLaws s (catalogArrived data s) := by
  unfold catalogArrived headerArrived descriptorsArrived
  split
  · dsimp only
    split
    · exact readCatalog_keepsMapLaws ..
    · split
      · exact catalogEnd_keepsMapLaws ..
      · split
        · exact catalogEnd_keepsMapLaws ..
        · exact readCatalog_keepsMapLaws ..
  · dsimp only
    split
    · exact readCatalog_keepsMapLaws ..
    · split
      · exact .of_same rfl rfl
      · exact catalogEnd_keepsMapLaws ..
  all_goals exact .refl s

theorem requestBoot_keepsMapLaws (ahead : List Byte) (s : State) : KeepsMapLaws s (requestBoot ahead s) := by
  unfold requestBoot
  split <;> exact .of_same rfl rfl

theorem stageCatalog_keepsMapLaws (r : BootRecord) (s : State) : KeepsMapLaws s (stageCatalog r s) := by
  unfold stageCatalog
  refine KeepsMapLaws.trans
    (t := { s with startup := { s.startup with stage := .catalog, record := some r, bootRead := none } })
    (.of_same rfl rfl) ?_
  dsimp only
  split
  · exact readCatalog_keepsMapLaws ..
  · exact enterMap_keepsMapLaws _

theorem bootArrived_keepsMapLaws (data ahead : List Byte) (s : State) :
    KeepsMapLaws s (bootArrived data ahead s) := by
  unfold bootArrived
  split
  · split
    · exact (requestBoot_keepsMapLaws ..).after rfl (.refl _)
    · exact (setOutcome_keepsMapLaws ..).trans (endStartup_keepsMapLaws _)
    · exact stageCatalog_keepsMapLaws ..
  · exact .refl s

theorem pollTaken_keepsMapLaws (ahead : List Byte) (s : State) : KeepsMapLaws s (pollTaken ahead s) := by
  rcases pollTaken_spec ahead s with ⟨-, -, e⟩ | ⟨-, -, e⟩ | ⟨-, e⟩ <;> rw [e]
  · exact (requestBoot_keepsMapLaws ..).after rfl (.refl _)
  · exact (setOutcome_keepsMapLaws ..).trans (endStartup_keepsMapLaws _)
  · exact .refl s

theorem preloadEnded_keepsMapLaws (failed : Bool) (taken : Nat) (s : State) :
    KeepsMapLaws s (preloadEnded failed taken s) := by
  rcases preloadEnded_spec failed taken s with ⟨-, e⟩ | ⟨-, e⟩ <;> rw [e]
  · exact (goOn_keepsMapLaws ..).after rfl (.refl _)
  · exact .refl s

theorem beginStartup_keepsMapLaws (s : State) : KeepsMapLaws s (beginStartup s) := by
  unfold beginStartup
  refine KeepsMapLaws.trans (t := { s with startup := Startup.reset }) (.of_same rfl rfl) ?_
  dsimp only
  split
  · exact .refl _
  · exact (setOutcome_keepsMapLaws ..).trans (endStartup_keepsMapLaws _)

/-! ### The serial link -/

theorem freeLink_keepsMapLaws (s : State) : KeepsMapLaws s s.freeLink := .of_same rfl rfl

theorem completeRead_keepsMapLaws (data : List Byte) (s : State) : KeepsMapLaws s (completeRead data s) := by
  unfold completeRead
  split <;> exact .of_same rfl rfl

theorem deliverLoader_keepsMapLaws (q : LoaderRequest) (data ahead : List Byte) (taken : Nat) (s : State) :
    KeepsMapLaws s (deliverLoader q data ahead taken s) := by
  unfold deliverLoader
  split
  · exact .refl s
  · split
    · have hc := chunkArrived_keepsMapLaws data s
      split <;> rename_i e <;> rw [e] at hc
      · exact hc
      · exact hc.trans (preloadEnded_keepsMapLaws ..)
      · exact hc.trans (preloadEnded_keepsMapLaws ..)
    · exact (catalogArrived_keepsMapLaws data s).trans (goOn_keepsMapLaws ..)
    · exact (bootArrived_keepsMapLaws data ahead s).trans (goOn_keepsMapLaws ..)

theorem completeLoader_keepsMapLaws (data ahead : List Byte) (taken : Nat) (s : State) :
    KeepsMapLaws s (completeLoader data ahead taken s) := by
  unfold completeLoader
  split
  · exact (deliverLoader_keepsMapLaws ..).after rfl (.refl _)
  · exact freeLink_keepsMapLaws s

theorem endRead_keepsMapLaws (data ahead : List Byte) (taken : Nat) (s : State) :
    KeepsMapLaws s (endRead data ahead taken s) := by
  unfold endRead
  split
  · split
    · split
      · exact completeRead_keepsMapLaws ..
      · exact completeLoader_keepsMapLaws ..
      all_goals exact .refl s
    · exact .refl s
  all_goals exact .refl s

theorem stallCatalog_keepsMapLaws (s : State) : KeepsMapLaws s (stallCatalog s) := by
  unfold stallCatalog
  split
  · exact catalogEnd_keepsMapLaws ..
  · exact catalogEnd_keepsMapLaws ..
  all_goals exact .refl s

theorem stallClients_keepsMapLaws (uncertain : Option (Nat × Nat)) (s : State) :
    KeepsMapLaws s (stallClients uncertain s) := by
  have he : KeepsMapLaws s (errorReadQueue s).1 := .of_same rfl rfl
  have hc : ∀ u : State, KeepsMapLaws u (flushLoader u) := fun u =>
    (stallCatalog_keepsMapLaws _).after rfl (.refl _)
  exact (he.trans (stallFill_keepsMapLaws _)).trans ((hc _).trans (.of_same rfl rfl))

theorem removeUncertain_keepsMapLaws (s : State) : KeepsMapLaws s (removeUncertain s).1 := by
  unfold removeUncertain
  split
  · split <;> exact .of_same rfl rfl
  · exact .refl s

theorem stallLink_keepsMapLaws (s : State) : KeepsMapLaws s s.stallLink := .of_same rfl rfl

theorem pollTimeout_keepsMapLaws (s : State) : KeepsMapLaws s (pollTimeout s) := by
  unfold pollTimeout
  split
  · exact ((stallLink_keepsMapLaws s).trans (removeUncertain_keepsMapLaws _)).trans (stallClients_keepsMapLaws ..)
  · exact (stallLink_keepsMapLaws s).trans (stallClients_keepsMapLaws ..)
  all_goals exact .refl s

theorem pollComplete_keepsMapLaws (s : State) : KeepsMapLaws s (pollComplete s) := by
  unfold pollComplete
  split <;> exact .of_same rfl rfl

theorem endPoll_keepsMapLaws (status : Byte) (s : State) : KeepsMapLaws s (endPoll status s) := by
  unfold endPoll
  split
  · refine KeepsMapLaws.trans (t := { s with ctl := { s.ctl with tx := none } }) (.of_same rfl rfl) ?_
    dsimp only
    split
    · exact pollComplete_keepsMapLaws _
    · split
      · exact pollTimeout_keepsMapLaws _
      · exact .refl _
  · exact .refl s

/-! ### Owners of management commands -/

theorem ownMapWrite_keepsMapLaws (p : List Byte) (s : State) : KeepsMapLaws s (ownMapWrite p s).state := by
  unfold ownMapWrite
  split
  · exact .of_writeEntry ‹_›
  · exact .refl s

theorem ownMapClear_keepsMapLaws (p : List Byte) (s : State) : KeepsMapLaws s (ownMapClear p s).state := by
  unfold ownMapClear
  split
  · exact .of_shadow fun h => h.2.put _ nofun
  · split
    · exact .of_shadow fun _ => Bank.invalid_legal
    · exact .refl s

theorem ownMapCopy_keepsMapLaws (p : List Byte) (s : State) : KeepsMapLaws s (ownMapCopy p s).state :=
  .of_shadow And.left

theorem ownMapRead_keepsMapLaws (p : List Byte) (s : State) : KeepsMapLaws s (ownMapRead p s).state := by
  unfold ownMapRead
  split
  · split <;> exact .refl s
  · exact .refl s

theorem ownMapCommit_keepsMapLaws (p : List Byte) (s : State) : KeepsMapLaws s (ownMapCommit p s).state := by
  unfold ownMapCommit
  split
  · exact .of_commit ‹_›
  · exact .refl s

theorem withDeclared_keepsMapLaws {p : List Byte} {s : State} {k : SegId → SegRecord → Reply}
    (hk : ∀ i r, KeepsMapLaws s (k i r).state) : KeepsMapLaws s (withDeclared p s k).state := by
  unfold withDeclared
  split
  · exact .refl s
  · split
    · exact .refl s
    · exact hk _ _

theorem ownSegDeclare_keepsMapLaws (p : List Byte) (s : State) : KeepsMapLaws s (ownSegDeclare p s).state := by
  unfold ownSegDeclare
  split
  · split
    · exact .refl s
    · split
      · split
        · exact .refl s
        · exact .of_lengths rfl (Store.declare_keepsLengths ‹_› _)
      · exact .refl s
  · exact .refl s

/-- A segment that no valid ACTIVE entry names may leave the table: the law of ACTIVE does not see it (R8, R44). -/
theorem releaseSegment_keepsMapLaws {i : SegId} {r : SegRecord} {s : State} (h : s.map.names i = false) :
    KeepsMapLaws s (releaseSegment i r s) := by
  refine ⟨id, fun hs => ?_⟩
  have hv : s.store.KeepsLengths (if r.state = .resident then s.store.vacate i else s.store) := by
    split
    · exact s.store.vacate_keepsLengths i
    · exact .refl _
  refine hs.mono fun k e he => ?_
  have hne : e.seg ≠ i := fun hi => Bool.eq_false_iff.mp h (s.map.names_iff i |>.mpr ⟨k, e, he, hi⟩)
  intro r' hr'
  obtain ⟨r'', hr'', hl⟩ := hv e.seg r' hr'
  exact ⟨r'', (Store.seg_setSeg _ i e.seg none).trans ((if_neg hne).trans hr''), hl⟩

theorem releaseRefusal_of_names {i : SegId} {s : State} (h : s.map.names i = true) (r : SegRecord) (force : Bool) :
    releaseRefusal i r force s = some .inUse := by simp [releaseRefusal, h]

theorem ownSegRelease_keepsMapLaws (p : List Byte) (s : State) : KeepsMapLaws s (ownSegRelease p s).state := by
  unfold ownSegRelease
  split
  · refine withDeclared_keepsMapLaws fun i r => ?_
    split
    · exact .refl s
    · rename_i hn
      refine releaseSegment_keepsMapLaws (Bool.eq_false_iff.mpr fun h => ?_)
      rw [releaseRefusal_of_names h] at hn
      cases hn
  · exact .refl s

theorem ownSegDrop_keepsMapLaws (p : List Byte) (s : State) : KeepsMapLaws s (ownSegDrop p s).state := by
  unfold ownSegDrop
  split
  · refine withDeclared_keepsMapLaws fun i r => ?_
    split
    · split
      · exact .refl s
      · exact .of_lengths rfl ((s.store.vacate_keepsLengths i).trans (Store.update_keepsLengths _ i fun _ => rfl))
    · exact .of_lengths rfl (Store.update_keepsLengths _ i fun _ => rfl)
    all_goals exact .refl s
  · exact .refl s

theorem ownSegPin_keepsMapLaws (p : List Byte) (s : State) : KeepsMapLaws s (ownSegPin p s).state := by
  unfold ownSegPin
  split
  · exact withDeclared_keepsMapLaws fun i r => .of_lengths rfl (Store.update_keepsLengths _ i fun _ => rfl)
  · exact .refl s

theorem ownSegQuery_keepsMapLaws (p : List Byte) (s : State) : KeepsMapLaws s (ownSegQuery p s).state := by
  unfold ownSegQuery
  split <;> exact .refl s

theorem ownSegRead_keepsMapLaws (p : List Byte) (s : State) : KeepsMapLaws s (ownSegRead p s).state := by
  unfold ownSegRead
  refine withDeclared_keepsMapLaws fun i r => ?_
  dsimp only
  split
  · exact .refl s
  · split
    · exact .refl s
    · split <;> exact .refl s

theorem ownPreload_keepsMapLaws (p : List Byte) (s : State) : KeepsMapLaws s (ownPreload p s).state := by
  unfold ownPreload
  refine withDeclared_keepsMapLaws fun i r => ?_
  have he : KeepsMapLaws s (if Config.fillCapacity ≤ s.fill.queue.length then Reply.unchanged s .full
      else ⟨s.enqueueFill i, .ok, [SegState.queued.code]⟩).state := by
    split
    · exact .refl s
    · exact enqueueFill_keepsMapLaws s i
  split
  any_goals exact .refl s
  all_goals exact he

theorem ownFillBegin_keepsMapLaws (p : List Byte) (s : State) : KeepsMapLaws s (ownFillBegin p s).state := by
  unfold ownFillBegin
  refine withDeclared_keepsMapLaws fun i r => ?_
  split
  · split
    · exact beginHostFill_keepsMapLaws ..
    · exact .refl s
  · exact .refl s
  · exact .refl s
  · split
    · exact beginHostFill_keepsMapLaws ..
    · exact beginHostFill_keepsMapLaws ..
    all_goals exact .refl s

theorem ownFillData_keepsMapLaws (p : List Byte) (s : State) : KeepsMapLaws s (ownFillData p s).state := by
  unfold ownFillData
  split
  · dsimp only
    split
    · exact .refl s
    · split
      · exact .refl s
      · exact .of_lengths rfl (.of_seg_eq fun _ => rfl)
  all_goals exact .refl s

theorem ownFillEnd_keepsMapLaws (p : List Byte) (s : State) : KeepsMapLaws s (ownFillEnd p s).state := by
  unfold ownFillEnd
  split
  · dsimp only
    split
    · exact failFill_keepsMapLaws ..
    · split
      · exact failFill_keepsMapLaws ..
      · exact completeFill_keepsMapLaws ..
  all_goals exact .refl s

theorem abortFill_keepsMapLaws (i : SegId) (origin : Origin) (s : State) :
    KeepsMapLaws s (abortFill i origin s).1 := by
  have hw : KeepsMapLaws s s.withdrawChunk := .of_same rfl rfl
  unfold abortFill
  split
  · exact hw.trans (failFill_keepsMapLaws ..)
  · exact hw.trans (undoFill_keepsMapLaws ..)

theorem ownFillAbort_keepsMapLaws (p : List Byte) (s : State) : KeepsMapLaws s (ownFillAbort p s).state := by
  unfold ownFillAbort
  split
  · exact .refl s
  · split
    · split
      · exact abortFill_keepsMapLaws ..
      · exact .refl s
    · exact .refl s

theorem ownEventRead_keepsMapLaws (p : List Byte) (s : State) : KeepsMapLaws s (ownEventRead p s).state := by
  unfold ownEventRead
  dsimp only
  split <;> exact .of_same rfl rfl

/-- A parameter written leaves the map and the store alone (R168). -/
theorem setParam_keepsMapLaws {ident value : Nat} {s t : State} (h : setParam ident value s = some t) :
    KeepsMapLaws s t := by
  unfold setParam at h
  split at h
  case h_6 => cases h
  all_goals split at h <;> cases h; exact .of_same rfl rfl

theorem ownSetParam_keepsMapLaws (p : List Byte) (s : State) : KeepsMapLaws s (ownSetParam p s).state := by
  unfold ownSetParam
  split
  · exact setParam_keepsMapLaws ‹_›
  · exact .refl s

end Sys2Proof.Machine
end

section
/-! PROOFS. The laws of the map, command by command, and every step. -/

namespace Sys2Proof.Machine

/-! ### Where an outcome leads -/

/-- The next state an outcome gives, if it gives one, has a property. -/
def Leads (P : State → Prop) (o : Host.Outcome State Fault Refusal) : Prop := ∀ t, o = .next t → P t

theorem Leads.next {P : State → Prop} {t : State} (h : P t) : Leads P (.next t) := by rintro _ ⟨⟩; exact h

/-- A management command leads to its owner's state with the response placed, or changes nothing (R160, log 2). -/
theorem Leads.runCommand {P : State → Prop} {s : State} {code : Byte} {owner : List Byte → State → Reply}
    (hs : P s) (ho : ∀ b p, s.handed code = some (b, p) →
      P ((owner p s).state.respond b (owner p s).status (owner p s).payload)) :
    Leads P (runCommand code owner s) := by
  cases h : s.handed code with
  | none => rw [runCommand_none h]; exact .next hs
  | some x => rw [runCommand_handed h]; exact .next (ho x.1 x.2 h)

theorem runCommand_keepsMapLaws {s : State} (code : Byte) {owner : List Byte → State → Reply}
    (ho : ∀ p, KeepsMapLaws s (owner p s).state) : Leads (KeepsMapLaws s) (runCommand code owner s) :=
  .runCommand (.refl s) fun _ p _ => (ho p).trans (respond_keepsMapLaws ..)

/-! ### One lemma per command -/

theorem execPinReset_keepsMapLaws (powerOn : Bool) (s : State) :
    Leads (KeepsMapLaws s) (execPinReset powerOn s) := by
  unfold execPinReset
  split
  · exact .next (.refl s)
  · exact .next (.of_reset rfl)

theorem execPinResetRelease_keepsMapLaws (sz : BitVec 3) (ma : BitVec 2) (bootEn : Bool) (s : State) :
    Leads (KeepsMapLaws s) (execPinResetRelease sz ma bootEn s) := by
  unfold execPinResetRelease
  split
  · exact .next (KeepsMapLaws.trans (.of_reset rfl) (beginStartup_keepsMapLaws _))
  · exact .next (.refl s)

theorem execReset_keepsMapLaws (s : State) : Leads (KeepsMapLaws s) (execReset s) := by
  unfold execReset
  split
  · exact .next (KeepsMapLaws.trans (.of_reset rfl) (beginStartup_keepsMapLaws _))
  · exact .next (.refl s)

theorem execArbiterChoice_keepsMapLaws (s : State) : Leads (KeepsMapLaws s) (execArbiterChoice s) := by
  unfold execArbiterChoice grantRead grantWrite grantLoader
  split
  any_goals split
  all_goals exact .next (.of_same rfl rfl)

theorem execReadTransactionEnd_keepsMapLaws (data : ReadEnd) (s : State) :
    Leads (KeepsMapLaws s) (execReadTransactionEnd data s) := by
  cases data with
  | ends bytes ahead taken => exact .next (endRead_keepsMapLaws ..)
  | goesOn count => exact .next (goOn_keepsMapLaws ..)

theorem execPollEnd_keepsMapLaws (status : PollAnswer) (s : State) :
    Leads (KeepsMapLaws s) (execPollEnd status s) := by
  cases status with
  | ends status ahead taken =>
    refine .next ?_
    split
    · exact (endPoll_keepsMapLaws ..).trans (pollTaken_keepsMapLaws ..)
    · exact endPoll_keepsMapLaws ..
  | taken ahead => exact .next (pollTaken_keepsMapLaws ..)

theorem execWriteEnableEnd_keepsMapLaws (s : State) : Leads (KeepsMapLaws s) (execWriteEnableEnd s) := by
  unfold execWriteEnableEnd
  split <;> exact .next (.of_same rfl rfl)

theorem execWriteTransactionEnd_keepsMapLaws (s : State) :
    Leads (KeepsMapLaws s) (execWriteTransactionEnd s) := by
  unfold execWriteTransactionEnd
  split <;> exact .next (.of_same rfl rfl)

theorem execPollStart_keepsMapLaws (s : State) : Leads (KeepsMapLaws s) (execPollStart s) := by
  unfold execPollStart
  split <;> exact .next (.of_same rfl rfl)

theorem execBusyTimerExpiry_keepsMapLaws (s : State) : Leads (KeepsMapLaws s) (execBusyTimerExpiry s) := by
  unfold execBusyTimerExpiry
  split <;> exact .next (.of_same rfl rfl)

theorem startWrite_keepsMapLaws (addr : BitVec 7) (s : State) : KeepsMapLaws s (startWrite addr s) := by
  unfold startWrite
  dsimp only
  split
  · split <;> exact .of_same rfl rfl
  · exact .of_same rfl rfl

theorem receiveBytes_keepsMapLaws (data : List Byte) (s : State) :
    KeepsMapLaws s (data.foldl receiveByte s) :=
  .of_same (receiveBytes_frame data s .map (by decide)) (receiveBytes_frame data s .store (by decide))

theorem execWriteTransferStart_keepsMapLaws (addr : WritePart) (s : State) :
    Leads (KeepsMapLaws s) (execWriteTransferStart addr s) := by
  unfold execWriteTransferStart
  split
  · exact .next ((startWrite_keepsMapLaws ..).trans (receiveBytes_keepsMapLaws ..))
  · exact .next (receiveBytes_keepsMapLaws ..)

theorem execFrameComplete_keepsMapLaws (code : Byte) (payload : List Byte) (check : Byte) (s : State) :
    Leads (KeepsMapLaws s) (execFrameComplete code payload check s) := by
  unfold execFrameComplete
  split
  · split <;> exact .next (.of_same rfl rfl)
  · exact .next (.refl s)

theorem execFrameDiscard_keepsMapLaws (cause : DiscardCause) (s : State) :
    Leads (KeepsMapLaws s) (execFrameDiscard cause s) := by
  unfold execFrameDiscard
  split
  · split
    · split <;> exact .next (.of_same rfl rfl)
    · exact .next (.of_same rfl rfl)
  · exact .next (.refl s)

theorem execReadTransfer_keepsMapLaws (addr : Option (BitVec 7)) (count : Nat) (s : State) :
    Leads (KeepsMapLaws s) (execReadTransfer addr count s) := by
  unfold execReadTransfer
  split
  · dsimp only
    split <;> exact .next (.of_same rfl rfl)
  · split <;> exact .next (.of_same rfl rfl)

theorem takeBuffer_keepsMapLaws (b : BufId) (f : Frame) (seq : BitVec 8) (ok : Bool) (s : State) :
    KeepsMapLaws s (takeBuffer b f seq ok s) := by
  unfold takeBuffer
  dsimp only
  split <;> exact .of_same rfl rfl

theorem execExecutorTake_keepsMapLaws (s : State) : Leads (KeepsMapLaws s) (execExecutorTake s) := by
  unfold execExecutorTake
  split
  · split
    · split
      · exact .next (takeBuffer_keepsMapLaws ..)
      all_goals exact .next (.refl s)
    · exact .next (.refl s)
  · exact .next (.refl s)

theorem execStatus_keepsMapLaws (owners : Nat) (s : State) : Leads (KeepsMapLaws s) (execStatus owners s) := by
  unfold execStatus
  split
  · dsimp only
    split <;> exact .next (.of_same rfl rfl)
  · exact .next (.refl s)

theorem execCatalogLoad_keepsMapLaws (s : State) : Leads (KeepsMapLaws s) (execCatalogLoad s) := by
  unfold execCatalogLoad
  split
  · split
    · exact .next (respond_keepsMapLaws ..)
    all_goals exact .next ((readCatalog_keepsMapLaws _ _).after rfl (.refl _))
  · exact .next (.refl s)

theorem execLinkRecover_keepsMapLaws (s : State) : Leads (KeepsMapLaws s) (execLinkRecover s) := by
  unfold execLinkRecover
  split
  · split <;> exact .next (.of_same rfl rfl)
  · exact .next (.refl s)

theorem execLinkRecoverPollEnd_keepsMapLaws (status : Byte) (s : State) :
    Leads (KeepsMapLaws s) (execLinkRecoverPollEnd status s) := by
  unfold execLinkRecoverPollEnd
  split
  · split <;> exact .next ((respondLong_keepsMapLaws ..).after rfl (.refl _))
  · exact .next (.refl s)

theorem execStartTimerExpiry_keepsMapLaws (s : State) : Leads (KeepsMapLaws s) (execStartTimerExpiry s) := by
  unfold execStartTimerExpiry
  split
  · exact .next (failFill_keepsMapLaws ..)
  all_goals exact .next (.refl s)

theorem execGapTimerExpiry_keepsMapLaws (s : State) : Leads (KeepsMapLaws s) (execGapTimerExpiry s) := by
  unfold execGapTimerExpiry
  split
  · exact .next (failFill_keepsMapLaws ..)
  all_goals exact .next (.refl s)

/-! ### Every command, every step -/

/-- Every command keeps the entries legal and the law of ACTIVE (R2, R17). -/
theorem exec_keepsMapLaws (c : Instr) (s : State) : Leads (KeepsMapLaws s) (exec c s) := by
  cases c with
  | pinReset powerOn => exact execPinReset_keepsMapLaws powerOn s
  | pinResetRelease sz ma be => exact execPinResetRelease_keepsMapLaws sz ma be s
  | read tag addr len => exact .next (presentRead_keepsMapLaws ..)
  | write addr data => exact .next (presentWrite_keepsMapLaws ..)
  | arbiterChoice => exact execArbiterChoice_keepsMapLaws s
  | readTransactionEnd data => exact execReadTransactionEnd_keepsMapLaws data s
  | writeEnableEnd => exact execWriteEnableEnd_keepsMapLaws s
  | writeTransactionEnd => exact execWriteTransactionEnd_keepsMapLaws s
  | pollStart => exact execPollStart_keepsMapLaws s
  | busyTimerExpiry => exact execBusyTimerExpiry_keepsMapLaws s
  | pollEnd status => exact execPollEnd_keepsMapLaws status s
  | writeTransferStart addr => exact execWriteTransferStart_keepsMapLaws addr s
  | frameComplete code payload check => exact execFrameComplete_keepsMapLaws code payload check s
  | frameDiscard cause => exact execFrameDiscard_keepsMapLaws cause s
  | readTransfer addr count => exact execReadTransfer_keepsMapLaws addr count s
  | executorTake => exact execExecutorTake_keepsMapLaws s
  | identify => exact runCommand_keepsMapLaws 0x01 fun _ => .refl s
  | status owners => exact execStatus_keepsMapLaws owners s
  | setParam => exact runCommand_keepsMapLaws 0x03 fun p => ownSetParam_keepsMapLaws p s
  | reset => exact execReset_keepsMapLaws s
  | eventRead => exact runCommand_keepsMapLaws 0x05 fun p => ownEventRead_keepsMapLaws p s
  | mapWrite => exact runCommand_keepsMapLaws 0x10 fun p => ownMapWrite_keepsMapLaws p s
  | mapClear => exact runCommand_keepsMapLaws 0x11 fun p => ownMapClear_keepsMapLaws p s
  | mapCopy => exact runCommand_keepsMapLaws 0x12 fun p => ownMapCopy_keepsMapLaws p s
  | mapRead => exact runCommand_keepsMapLaws 0x13 fun p => ownMapRead_keepsMapLaws p s
  | mapCommit => exact runCommand_keepsMapLaws 0x14 fun p => ownMapCommit_keepsMapLaws p s
  | segDeclare => exact runCommand_keepsMapLaws 0x20 fun p => ownSegDeclare_keepsMapLaws p s
  | segRelease => exact runCommand_keepsMapLaws 0x21 fun p => ownSegRelease_keepsMapLaws p s
  | segDrop => exact runCommand_keepsMapLaws 0x22 fun p => ownSegDrop_keepsMapLaws p s
  | segPin => exact runCommand_keepsMapLaws 0x23 fun p => ownSegPin_keepsMapLaws p s
  | segQuery => exact runCommand_keepsMapLaws 0x24 fun p => ownSegQuery_keepsMapLaws p s
  | segRead => exact runCommand_keepsMapLaws 0x25 fun p => ownSegRead_keepsMapLaws p s
  | preload => exact runCommand_keepsMapLaws 0x30 fun p => ownPreload_keepsMapLaws p s
  | fillBegin => exact runCommand_keepsMapLaws 0x31 fun p => ownFillBegin_keepsMapLaws p s
  | fillData => exact runCommand_keepsMapLaws 0x32 fun p => ownFillData_keepsMapLaws p s
  | fillEnd => exact runCommand_keepsMapLaws 0x33 fun p => ownFillEnd_keepsMapLaws p s
  | fillAbort => exact runCommand_keepsMapLaws 0x34 fun p => ownFillAbort_keepsMapLaws p s
  | catalogLoad => exact execCatalogLoad_keepsMapLaws s
  | linkRecover => exact execLinkRecover_keepsMapLaws s
  | linkRecoverPollEnd status => exact execLinkRecoverPollEnd_keepsMapLaws status s
  | takeHead => exact .next (takeHead_keepsMapLaws s)
  | startTimerExpiry => exact execStartTimerExpiry_keepsMapLaws s
  | gapTimerExpiry => exact execGapTimerExpiry_keepsMapLaws s

/-- What every command keeps, and taking it from the queue keeps, every step keeps. -/
theorem step_leads {P : State → State → Prop} (hr : ∀ s, P s s)
    (hq : ∀ s c rest, s.pending = c :: rest → Leads (P s) (exec c { s with pending := rest })) (s : State) :
    Leads (P s) (step s) := by
  unfold step
  split
  · exact hq s _ _ ‹_›
  · exact .next (hr s)

theorem step_keepsMapLaws (s : State) : Leads (KeepsMapLaws s) (step s) :=
  step_leads .refl (fun s c rest _ t ht => (exec_keepsMapLaws c { s with pending := rest } t ht).after rfl (.refl _)) s

/-- Settles O58: the two laws across each command, one lemma per operation. -/
theorem mapLawsKept : Obligations.MapLawsKept := by
  intro s t h
  obtain ⟨entries, active⟩ := step_keepsMapLaws s t h
  exact ⟨entries, active⟩

end Sys2Proof.Machine
end

section
/-! PROOFS. The overlay map's own statements: validation, lookup and the five map commands. -/

namespace Sys2Proof.Machine

/-! ### What a command of the map unit leaves behind -/

theorem SameBut.refl (ps : List Part) (s : State) : SameBut ps s s := fun p _ => by cases p <;> rfl

theorem SameBut.mono {ps qs : List Part} {s t : State} (h : SameBut ps s t) (hq : ∀ p ∈ ps, p ∈ qs) :
    SameBut qs s t := fun p hp => h p fun hm => hp (hq p hm)

theorem State.respond_frame (s : State) (b : BufId) (st : Status) (p : List Byte) :
    SameBut [.mgmt] s (s.respond b st p) := by
  intro p hp; cases p <;> simp_all [Part.same]

theorem State.setMap_frame (s : State) (m : MapUnit) : SameBut [.map] s { s with map := m } := by
  intro p hp; cases p <;> simp_all [Part.same]

/-- A command whose owner changes nothing: its response placed, the rest as it was. -/
theorem runCommand_unchanged {code : Byte} {s : State} {b : BufId} {p : List Byte}
    {owner : List Byte → State → Reply} {st : Status} {pl : List Byte} (h : s.handed code = some (b, p))
    (ho : owner p s = .unchanged s st pl) :
    ∃ t, runCommand code owner s = .next t ∧ Answered b st pl s t ∧ SameBut [.mgmt] s t := by
  refine ⟨_, runCommand_handed h owner, ?_⟩
  rw [ho]
  exact ⟨State.respond_answered h rfl _ _, State.respond_frame _ _ _ _⟩

/-- A command whose owner changes the map alone: its response placed, the rest as it was. -/
theorem runCommand_setMap {code : Byte} {s : State} {b : BufId} {p : List Byte}
    {owner : List Byte → State → Reply} {m : MapUnit} {st : Status} {pl : List Byte}
    (h : s.handed code = some (b, p)) (ho : owner p s = ⟨{ s with map := m }, st, pl⟩) :
    ∃ t, runCommand code owner s = .next t ∧ t.map = m ∧ Answered b st pl s t ∧ SameBut [.map, .mgmt] s t := by
  refine ⟨_, runCommand_handed h owner, ?_⟩
  rw [ho]
  exact ⟨rfl, State.respond_answered h rfl _ _, ((s.setMap_frame m).mono (by simp)).trans
    ((State.respond_frame _ _ _ _).mono (by simp))⟩

/-! ### Validation and lookup -/

/-- Settles O17, from the three checks of one entry (`Bank.faultAt_valid`) and the searches in index order. -/
theorem commitValidation : Obligations.CommitValidation := by
  intro bank st
  refine ⟨Bank.validate_eq_none_iff_consistent, fun f hf => ?_⟩
  obtain ⟨i, hi, hlow⟩ := Bank.validate_eq_some.mp hf
  cases he : bank[i] with
  | none => cases (Bank.faultAt_invalid he st).symm.trans hi
  | some e =>
    rcases Bank.faultAt_valid he st with ⟨hr, hx⟩ | ⟨r, hr, ⟨hb, hx⟩ | ⟨hb, hx⟩⟩
    · cases hx.symm.trans hi
      exact ⟨hlow, e, he, hr, rfl⟩
    · cases hx.symm.trans hi
      exact ⟨hlow, e, he, rfl, r, hr, hb⟩
    · rw [hx, Option.map_eq_some_iff] at hi
      obtain ⟨j, hj, rfl⟩ := hi
      obtain ⟨⟨hji, g, hg, hover⟩, hfirst⟩ := Bank.overlapBelow_eq_some.mp hj
      obtain ⟨hlt, hgt⟩ := (e.overlaps_iff g).mp hover
      refine ⟨hlow, e, he, ⟨r, hr, hb⟩, j, g, rfl, hji, hg, hlt, hgt, fun k u hk hu ho => ?_⟩
      exact hfirst k hk ⟨hk.trans hji, u, hu, (e.overlaps_iff u).mpr ho⟩

/-- In a bank without overlaps the entry that contains a request is the one the lookup finds (R4, R17). -/
theorem MapUnit.lookup_of_contains {m : MapUnit} {st : Store} (hc : m.active.Consistent st) {addr len : Nat}
    (hlen : 0 < len) {i : MapIndex} {e : MapEntry} (he : m.active[i] = some e)
    (hin : e.base ≤ addr ∧ addr + len ≤ e.base + e.size) :
    m.lookup addr len = some ⟨i, e.seg, addr - e.base + e.offset, e.wpol, e.apol⟩ := by
  refine MapUnit.lookup_eq_some.mpr ⟨i, Bank.hitAt_eq_some.mpr ⟨e, he, hin, rfl⟩, fun j hj => ?_⟩
  refine Bank.hitAt_eq_none.mpr fun f hf hin' => ?_
  have hover := MapEntry.overlaps_of_contain hlen hin hin'
  exact Bool.eq_false_iff.mp (hc.1 i j e f he hf (Ne.symm (Fin.ne_of_lt hj))) hover

/-- Settles O19: no two entries of a consistent bank contain the same request. -/
theorem lookupHits : Obligations.LookupHits := by
  intro s addr len hs hlen
  refine ⟨fun i e he hlo hhi => ⟨MapUnit.lookup_of_contains hs hlen he ⟨hlo, hhi⟩, ?_⟩, fun h => ?_⟩
  · obtain ⟨r, hr, hin⟩ := hs.2 i e he
    refine ⟨r, hr, ?_⟩
    have : e.offset + e.size ≤ (r.length + 255) / 256 * 256 := hin
    omega
  · exact MapUnit.lookup_eq_none.mpr fun i => Bank.hitAt_eq_none.mpr (h i)

/-! ### MAP_WRITE (R10) -/

/-- The little-endian fields of MAP_WRITE's twelve bytes (10.2, 10.3). -/
theorem rawEntry_bytes (x0 x1 x2 x3 x4 x5 x6 x7 x8 x9 x10 x11 : Byte) :
    rawEntry [x0, x1, x2, x3, x4, x5, x6, x7, x8, x9, x10, x11] = {
      index := x0.toNat
      base := x1.toNat + 256 * x2.toNat + 65536 * x3.toNat
      size := x4.toNat + 256 * x5.toNat + 65536 * x6.toNat
      seg := x7.toNat
      offset := x8.toNat + 256 * x9.toNat
      wpol := x10.toNat
      apol := x11.toNat } := by
  simp [rawEntry, field, leValue]
  omega

/-- Settles O15, from what an entry write does with the arguments (`MapUnit.writeEntry_spec`). -/
theorem mapWriteEffect : Obligations.MapWriteEffect := by
  refine ⟨⟨rfl, rfl⟩, rawEntry_bytes, fun s b p r h hr => ?_⟩
  subst hr
  rcases s.map.writeEntry_spec (rawEntry p) with ⟨i, seg, w, a, hn, hl, hw⟩ | ⟨hno, hw⟩
  · obtain ⟨t, ht, hm, ha, hf⟩ := runCommand_setMap h (owner := ownMapWrite) (by simp only [ownMapWrite, hw]; rfl)
    obtain ⟨hi, hseg, hwp, hap⟩ := hn
    refine ⟨t, ht, .inl ⟨i, seg, w, a, hi, hseg, hwp, hap, hl, ha, ?_, fun j hj => ?_, ?_, ?_, hf⟩⟩
    · rw [hm]; exact (Bank.getElem_put ..).trans (if_pos rfl)
    · rw [hm]; exact (Bank.getElem_put ..).trans (if_neg hj)
    · rw [hm]
    · rw [hm]
  · obtain ⟨t, ht, ha, hf⟩ := runCommand_unchanged h (owner := ownMapWrite) (by simp only [ownMapWrite, hw]; rfl)
    exact ⟨t, ht, .inr ⟨fun i seg w a hi hs hw ha => hno i seg w a ⟨hi, hs, hw, ha⟩, ha, hf⟩⟩

/-! ### MAP_CLEAR, MAP_COPY, MAP_READ (R12 to R14) -/

theorem idArg_eq (p : List Byte) : idArg p = (byteAt p 0).toNat := field_byte0 p

/-- What MAP_CLEAR answers for each index byte (R12). -/
theorem ownMapClear_spec (p : List Byte) (s : State) {n : Nat} (hn : n = (byteAt p 0).toNat) :
    ((n < 32 ∨ n = 255) ∧ ∃ bank : Bank,
      (∀ j : MapIndex, bank[j] = if j.val = n ∨ n = 255 then none else s.map.shadow[j]) ∧
      ownMapClear p s = ⟨{ s with map := { s.map with shadow := bank } }, .ok, []⟩) ∨
    (¬ (n < 32 ∨ n = 255) ∧ ownMapClear p s = .unchanged s .badArgument) := by
  rw [← idArg_eq] at hn
  subst hn
  unfold ownMapClear
  by_cases h : idArg p < 32
  · refine .inl ⟨.inl h, s.map.shadow.put ⟨idArg p, h⟩ none, fun j => ?_, dif_pos h⟩
    have hne : idArg p ≠ 255 := by omega
    simp only [Bank.getElem_put, Fin.ext_iff, hne, or_false]
  · rw [dif_neg h]
    by_cases h2 : idArg p = 255
    · refine .inl ⟨.inr h2, Bank.invalid, fun j => ?_, if_pos h2⟩
      rw [if_pos (.inr h2)]
      exact Bank.invalid_getElem j
    · exact .inr ⟨by omega, if_neg h2⟩

/-- MAP_CLEAR changes SHADOW alone (R12). -/
theorem exec_mapClear {s : State} {b : BufId} {p : List Byte} {n : Nat} (h : s.handed 0x11 = some (b, p))
    (hn : n = (byteAt p 0).toNat) :
    ∃ t, exec .mapClear s = .next t ∧ t.map.active = s.map.active ∧
      t.map.generation = s.map.generation ∧ SameBut [.map, .mgmt] s t ∧
      (if n < 32 ∨ n = 255 then Answered b .ok [] s t ∧
        ∀ j : MapIndex, t.map.shadow[j] = if j.val = n ∨ n = 255 then none else s.map.shadow[j]
      else Answered b .badArgument [] s t ∧ t.map.shadow = s.map.shadow) := by
  rcases ownMapClear_spec p s hn with ⟨hc, bank, hb, ho⟩ | ⟨hc, ho⟩
  · obtain ⟨t, ht, hm, ha, hf⟩ := runCommand_setMap h ho
    refine ⟨t, ht, by rw [hm], by rw [hm], hf, ?_⟩
    rw [if_pos hc, hm]
    exact ⟨ha, hb⟩
  · obtain ⟨t, ht, ha, hf⟩ := runCommand_unchanged h ho
    have hm : t.map = s.map := hf .map (by decide)
    refine ⟨t, ht, by rw [hm], by rw [hm], hf.mono (by simp), ?_⟩
    rw [if_neg hc, hm]
    exact ⟨ha, rfl⟩

/-- MAP_COPY copies ACTIVE into SHADOW, which a commit then accepts (R13). -/
theorem exec_mapCopy {s : State} {b : BufId} {p : List Byte} (h : s.handed 0x12 = some (b, p)) :
    ∃ t, exec .mapCopy s = .next t ∧ Answered b .ok [] s t ∧
      t.map = { s.map with shadow := s.map.active } ∧ SameBut [.map, .mgmt] s t ∧
      (ActiveLaw s → t.map.shadow.validate t.store = none) := by
  obtain ⟨t, ht, hm, ha, hf⟩ := runCommand_setMap h (owner := ownMapCopy) rfl
  refine ⟨t, ht, ha, hm, hf, fun hs => ?_⟩
  have hst : t.store = s.store := hf .store (by decide)
  rw [hm, hst]
  exact Bank.validate_eq_none_iff_consistent.mpr hs

/-- A control byte without reserved bits is its bit 0 (R183). -/
theorem controlBit_byte {x : Byte} (h : x.toNat ≤ 1) : (if controlBit x then 1 else 0 : Byte) = x := by
  rw [controlBit_eq h]
  by_cases hx : x = 1
  · simp [hx]
  · have : x = 0 := BitVec.eq_of_toNat_eq (by
      have h1 : x.toNat ≠ 1 := fun e => hx (BitVec.eq_of_toNat_eq e)
      show x.toNat = 0
      omega)
    simp [this]

/-- The MAP_READ response for a valid entry (10.2, 10.3). -/
theorem mapReadPayload_valid {x : Byte} (h : x.toNat ≤ 1) (i : MapIndex) (e : MapEntry) (g : BitVec 16) :
    mapReadPayload (controlBit x) i (some e) g = [x, byte i.val, 1] ++ leBytes 3 e.base ++ leBytes 3 e.size ++
      [byte (segNum e.seg)] ++ leBytes 2 e.offset ++ [e.wpol.code, e.apol.code] ++ leBytes 2 g.toNat := by
  simp only [mapReadPayload, MapEntry.bytes, controlBit_byte h, List.cons_append, List.nil_append,
    List.append_assoc]

/-- The MAP_READ response for an invalid entry (10.2). -/
theorem mapReadPayload_invalid {x : Byte} (h : x.toNat ≤ 1) (i : MapIndex) (g : BitVec 16) :
    mapReadPayload (controlBit x) i none g =
      [x, byte i.val] ++ List.replicate 12 0 ++ leBytes 2 g.toNat := by
  simp only [mapReadPayload, controlBit_byte h]

/-- MAP_READ's answer for a legal bank control and index (R14). -/
theorem ownMapRead_legal {p : List Byte} (s : State) {i : MapIndex} (h0 : (byteAt p 0).toNat ≤ 1)
    (hi : (byteAt p 1).toNat = i.val) :
    ownMapRead p s = .unchanged s .ok (mapReadPayload (controlBit (byteAt p 0)) i
      (if byteAt p 0 = 1 then s.map.shadow else s.map.active)[i] s.map.generation) := by
  have hlt : field p 1 1 < 32 := by rw [field_byte1, hi]; exact i.isLt
  have hx : (⟨field p 1 1, hlt⟩ : MapIndex) = i := Fin.ext ((field_byte1 p).trans hi)
  simp only [ownMapRead, if_pos ((controlOk_iff _).mpr h0), dif_pos hlt, hx, controlBit_eq h0, decide_eq_true_eq]

theorem ownMapRead_refused {p : List Byte} (s : State)
    (h : 1 < (byteAt p 0).toNat ∨ 31 < (byteAt p 1).toNat) : ownMapRead p s = .unchanged s .badArgument := by
  unfold ownMapRead
  split
  · rename_i hc
    rw [dif_neg]
    rw [controlOk_iff] at hc
    rw [field_byte1]
    omega
  · rfl

/-- MAP_READ changes neither bank (R14). -/
theorem exec_mapRead {s : State} {b : BufId} {p : List Byte} (h : s.handed 0x13 = some (b, p)) :
    ∃ t, exec .mapRead s = .next t ∧ SameBut [.mgmt] s t ∧
      if 1 < (byteAt p 0).toNat ∨ 31 < (byteAt p 1).toNat then Answered b .badArgument [] s t
      else ∀ i : MapIndex, (byteAt p 1).toNat = i.val →
        Answered b .ok (mapReadPayload (controlBit (byteAt p 0)) i
          (if byteAt p 0 = 1 then s.map.shadow else s.map.active)[i] s.map.generation) s t := by
  by_cases hc : 1 < (byteAt p 0).toNat ∨ 31 < (byteAt p 1).toNat
  · obtain ⟨t, ht, ha, hf⟩ := runCommand_unchanged h (ownMapRead_refused s hc)
    exact ⟨t, ht, hf, by rw [if_pos hc]; exact ha⟩
  · have hlt : (byteAt p 1).toNat < 32 := by omega
    obtain ⟨t, ht, ha, hf⟩ := runCommand_unchanged h
      (ownMapRead_legal s (i := ⟨_, hlt⟩) (by omega) rfl)
    refine ⟨t, ht, hf, ?_⟩
    rw [if_neg hc]
    intro i hi
    rwa [show i = ⟨_, hlt⟩ from Fin.ext hi.symm]

/-- Settles O16, one lemma per command. -/
theorem mapClearCopyRead : Obligations.MapClearCopyRead := by
  refine ⟨fun s b p n h hn => exec_mapClear h hn, fun s b p h => exec_mapCopy h, fun s b p h => ?_⟩
  obtain ⟨t, ht, hf, hr⟩ := exec_mapRead h
  refine ⟨t, ht, hf, ?_⟩
  split
  · rename_i hc; rwa [if_pos hc] at hr
  · rename_i hc
    rw [if_neg hc] at hr
    intro i hi
    have ha := hr i hi
    have h0 : (byteAt p 0).toNat ≤ 1 := by omega
    split
    · rename_i e he
      rwa [he, mapReadPayload_valid h0] at ha
    · rename_i he
      rwa [he, mapReadPayload_invalid h0] at ha

/-! ### MAP_COMMIT (R16, R18) -/

/-- Settles O18, from the two outcomes of a commit (`MapUnit.commit_spec`). -/
theorem mapCommitEffect : Obligations.MapCommitEffect := by
  refine ⟨rfl, fun s b p g h hg => ?_⟩
  rw [← nextGeneration_eq] at hg
  subst hg
  rcases s.map.commit_spec s.store with ⟨hc, hm⟩ | ⟨hc, f, hf, hm⟩
  · obtain ⟨t, ht, hmap, ha, hfr⟩ := runCommand_setMap h (owner := ownMapCommit)
      (by simp only [ownMapCommit, hm]; rfl)
    exact ⟨t, ht, by rw [hmap], hfr, .inl ⟨hc, by rw [hmap], by rw [hmap], ha⟩⟩
  · obtain ⟨t, ht, ha, hfr⟩ := runCommand_unchanged h (owner := ownMapCommit)
      (by simp only [ownMapCommit, hm]; rfl)
    have hmap : t.map = s.map := hfr .map (by decide)
    exact ⟨t, ht, by rw [hmap], hfr.mono (by simp), .inr ⟨hc, hmap, f, hf, ha⟩⟩

end Sys2Proof.Machine
end

section
/-! PROOFS. The two pin-reset commands and RESET, and the laws right after power-on. -/

namespace Sys2Proof.Machine

/-! ### The blocks at their reset values -/

@[simp] theorem Store.reset_seg (sram : List Host.Cell) (i : SegId) : (Store.reset sram).seg i = none := by
  simp [Store.seg, Store.reset]

theorem Store.reset_free (sram : List Host.Cell) : (Store.reset sram).free = List.finRange 512 := by
  unfold Store.reset; with_reducible rfl

theorem Store.reset_sram (sram : List Host.Cell) : (Store.reset sram).sram = sram := rfl

theorem Store.blocksOf_undeclared {st : Store} {i : SegId} (h : st.seg i = none) : st.blocksOf i = [] := by
  simp [Store.blocksOf, h]

theorem Store.reset_allBlocks (sram : List Host.Cell) : (Store.reset sram).allBlocks = [] :=
  List.flatMap_eq_nil_iff.mpr fun i _ => Store.blocksOf_undeclared (Store.reset_seg sram i)

/-- The reset store and engine meet their law: every block free, nothing declared (R25, R50). -/
theorem StoreLaw.of_reset {s : State} {sram : List Host.Cell} {l : Option (SegId × FillOutcome)}
    (hs : s.store = Store.reset sram) (hf : s.fill = FillUnit.reset l) : StoreLaw s where
  blocks := by rw [hs, Store.reset_allBlocks, Store.reset_free, List.append_nil]
  fit i r h := by rw [hs, Store.reset_seg] at h; cases h
  resident := by rw [hs]; exact ⟨List.nodup_nil, fun i => by rw [Store.reset_seg]; simp [Store.reset]⟩
  queued := by rw [hf]; exact ⟨List.nodup_nil, nofun⟩
  current := by rw [hf]; trivial

/-- The reset port meets its law: nothing outstanding, held or waiting (R64, R67). -/
theorem PortLaw.of_reset {s : State} {sram : List Host.Cell} (hs : s.store = Store.reset sram)
    (hp : s.port = Port.reset) : PortLaw s where
  distinct := by rw [hp]; exact List.nodup_nil
  outstanding := by rw [hp]; exact .refl _
  held := by rw [hp]; exact Nat.zero_le _
  names := by rw [hp]; nofun
  counts i := by simp [hs, hp, Store.heldOf, Port.heldFor, Port.reset]
  waits := by rw [hp]; nofun

/-- Settles O55. -/
theorem resetMeetsLaws : Obligations.ResetMeetsLaws :=
  ⟨⟨Nat.zero_le _, Nat.zero_le _, Nat.zero_le _, nofun⟩, Memory.reset_wf, (mapLaws_of_reset rfl).1,
    (mapLaws_of_reset rfl).2, .of_reset rfl rfl, .of_reset rfl rfl, nofun, Nat.zero_le _, Nat.zero_le _⟩

/-! ### The reset events -/

/-- CS_N is driven high only where a transaction is in flight (R135). -/
theorem State.cutOff_outputs (s : State) :
    s.cutOff.outputs = s.outputs ++ if s.ctl.tx = none then [] else [.deselect] := by
  unfold State.cutOff
  cases h : s.ctl.tx <;> simp

/-- Nothing but the record of outputs sees CS_N driven high. -/
theorem State.cutOff_frame (s : State) : SameBut [.outputs] s s.cutOff := by
  intro p hp
  unfold State.cutOff
  split <;> cases p <;> simp_all [Part.same]

/-- Start-up in the reset event: stage POLL, or ended DISABLED with its event where BOOT_EN is 0 (R144). -/
theorem beginStartup_eq (s : State) : beginStartup s = { s with
    startup := { Startup.reset with
      stage := if s.pins.bootEn then .poll else .run
      outcome := if s.pins.bootEn then .ok else .disabled }
    events := if s.pins.bootEn then s.events
      else s.events.post (.startupDone .disabled s.map.generation 0 s.write.resetDiscard) } := by
  unfold beginStartup
  cases h : s.pins.bootEn <;> simp [h, endStartup, State.setOutcome, Startup.reset, State.post]

/-- Settles O3, by the branch on RESET_N that each of the two commands takes. -/
theorem pinResets : Obligations.PinResets := by
  refine ⟨⟨fun s h => ?_, fun powerOn s h => ?_⟩, fun sz ma be s => ⟨fun h => ?_, fun h => ?_⟩⟩
  · exact if_pos ⟨rfl, h⟩
  · have hc : ¬ (powerOn = false ∧ s.pins.inReset = true) := by
      rintro ⟨rfl, hr⟩; rcases h with h | h <;> simp_all
    have hpins : s.cutOff.pins = s.pins := s.cutOff_frame .pins (by decide)
    have hstore : s.cutOff.store = s.store := s.cutOff_frame .store (by decide)
    have hpending : s.cutOff.pending = s.pending := s.cutOff_frame .pending (by decide)
    refine ⟨_, if_neg hc, s.cutOff_outputs, by simp [hpins], rfl, Store.reset_free _, Store.reset_seg _, rfl, ?_,
      rfl, ?_, ?_, rfl, rfl, rfl, rfl, rfl, rfl, rfl, rfl, rfl, rfl, rfl, ?_⟩
    · exact (Store.reset_sram _).trans (congrArg Store.sram hstore)
    · cases powerOn <;> rfl
    · cases powerOn <;> rfl
    · exact hpending
  · exact if_neg (by simp [h])
  · refine ⟨_, if_pos h, ?_⟩
    rw [beginStartup_eq]
    refine ⟨rfl, rfl, rfl, rfl, fun i => ⟨Bank.invalid_getElem i, Bank.invalid_getElem i⟩, Store.reset_free _,
      Store.reset_seg _, rfl, rfl, rfl, rfl, rfl, rfl, ?_⟩
    cases be <;> rfl

/-- RETRY for the presentation that waits, where one does (log 25). -/
theorem softResetAnswers_eq (p : Port) : softResetAnswers p =
    (p.held.map fun h => .errorTag h.tag) ++ (p.readQueue.map fun q => .errorTag q.tag) ++
      if p.looked = none then [] else [.answer .retry] := by
  unfold softResetAnswers
  cases p.looked <;> simp

/-- RESET as a whole: every block at its reset value, the reset poll and start-up begun (R169). -/
theorem softReset_eq (b : BufId) (s : State) : softReset b s = {
    pending := s.pending
    outputs := s.outputs ++ softResetAnswers s.port ++ (if s.ctl.tx = none then [] else [.deselect]) ++
      [.begins ⟨.readStatus, 8⟩]
    pins := s.pins
    map := MapUnit.reset
    store := Store.reset s.store.sram
    port := Port.reset
    fill := FillUnit.reset s.fill.endAtReset
    write := WritePath.reset s.write.queue.length
    ctl := { Controller.held with tx := some ⟨.readStatus, 8⟩, busyTimer := some 20 }
    startup := { Startup.reset with
      stage := if s.pins.bootEn then .poll else .run
      outcome := if s.pins.bootEn then .ok else .disabled }
    mgmt := s.mgmt.softReset b
    events := if s.pins.bootEn then EventQueue.reset
      else EventQueue.reset.post (.startupDone .disabled 0 0 s.write.queue.length) } := by
  unfold softReset
  rw [beginStartup_eq]
  unfold State.cutOff
  cases h : s.ctl.tx <;> simp [h, State.beginResetPoll, State.beginTx, State.resetBlocks, State.emitAll,
    State.emit] <;> exact ⟨rfl, ⟨rfl, rfl⟩, rfl⟩

theorem CmdBuffer.isReceiving_iff (x : CmdBuffer) : x.isReceiving = true ↔ ∃ bytes, x = .receiving bytes := by
  cases x <;> simp [CmdBuffer.isReceiving]

/-- The management link after RESET: the response in its buffer, the other buffer EMPTY, the rest kept (R169, R170). -/
theorem Mgmt.softReset_spec {m : Mgmt} {b : BufId} {f : Frame} {q : BitVec 8} (h : m.buf b = .executing f q) :
    (m.softReset b).buf b = .answered ⟨.ok, f.code, q, []⟩ ∧ (m.softReset b).buf b.other = .empty ∧
      (m.softReset b).executor = .idle ∧ (m.softReset b).mark = m.mark ∧ (m.softReset b).seq = m.seq ∧
      (m.softReset b).reading = m.reading.map (fun t => if t.source = some b.other then ⟨none, []⟩ else t) ∧
      (m.softReset b).refusing = (m.refusing || (m.buf b.other).isReceiving) := by
  unfold Mgmt.softReset
  rw [Mgmt.respond_executing h]
  cases b <;> exact ⟨rfl, rfl, rfl, rfl, rfl, rfl, rfl⟩

/-- Settles O4, from the state after RESET (`softReset_eq`) and its management link (`Mgmt.softReset_spec`). -/
theorem softResetEffect : Obligations.SoftResetEffect := by
  intro s b p h
  obtain ⟨-, q, hq⟩ := State.handed_spec h
  obtain ⟨hbuf, hother, hexec, hmark, hseq, hreading, hrefusing⟩ := Mgmt.softReset_spec hq
  refine ⟨softReset b s, by show execReset s = _; simp only [execReset, h], ?_⟩
  rw [softReset_eq]
  refine ⟨⟨q, hq, hbuf⟩, hother, hexec, hmark, hseq, rfl, rfl, fun r hr => ?_, ?_, ?_, rfl, rfl, rfl,
    Store.reset_seg _, Store.reset_free _, rfl, Store.reset_sram _, rfl,
    fun i => ⟨Bank.invalid_getElem i, Bank.invalid_getElem i⟩, rfl, rfl, ?_⟩
  · exact hreading.trans (by rw [hr]; rfl)
  · rw [← CmdBuffer.isReceiving_iff, ← Bool.or_eq_true, ← hrefusing]
  · simp only [softResetAnswers_eq, List.append_assoc]
  · cases s.pins.bootEn <;> rfl

end Sys2Proof.Machine
end

section
/-! PROOFS. A host presentation in two events (R57, R103, log 25): the route of a hit reads the lookup's result and
not the map, so the enquiry does what the whole presentation would. -/

namespace Sys2Proof.Machine

/-! ### The route of a hit does not see the map -/

/-- A part in which only the map unit differs. -/
def State.withMap (s : State) (m : MapUnit) : State := { s with map := m }

theorem State.withMap_memSize (s : State) (m : MapUnit) : (s.withMap m).memSize = s.memSize :=
  State.memSize_congr rfl

theorem requestFill_withMap (s : State) (i : SegId) (m : MapUnit) :
    (s.withMap m).requestFill i = (s.requestFill i).withMap m := by
  unfold State.requestFill State.withMap
  dsimp only
  split_ifs <;> rfl

theorem readDownstream_withMap (q : ReadRequest) (seg request : Option SegId) (s : State) (m : MapUnit) :
    readDownstream q seg request (s.withMap m) = (readDownstream q seg request s).withMap m := by
  unfold readDownstream
  rw [State.withMap_memSize, show (s.withMap m).ctl = s.ctl from rfl]
  split_ifs
  · rfl
  · rfl
  · cases request with
    | none => rfl
    | some i => exact requestFill_withMap (s.admitRead q) i m

theorem parkRead_withMap (q : ReadRequest) (h : Hit) (absent : Bool) (s : State) (m : MapUnit) :
    parkRead q h absent (s.withMap m) = (parkRead q h absent s).withMap m := by
  unfold parkRead
  rw [show (s.withMap m).port = s.port from rfl, show (s.withMap m).fill = s.fill from rfl]
  split_ifs <;> rfl

theorem routeHit_withMap (q : ReadRequest) (h : Hit) (s : State) (m : MapUnit) :
    routeHit q h (s.withMap m) = (routeHit q h s).withMap m := by
  unfold routeHit
  rw [show (s.withMap m).store = s.store from rfl]
  cases s.store.seg h.seg with
  | none => exact readDownstream_withMap ..
  | some r =>
    dsimp only
    split
    · rfl
    · exact parkRead_withMap ..
    · rfl
    · exact parkRead_withMap ..
    · exact readDownstream_withMap ..
    · exact readDownstream_withMap ..
    · exact readDownstream_withMap ..
    · rfl

theorem admitWrite_withMap (addr : Nat) (data : List Byte) (seg : Option SegId) (s : State) (m : MapUnit) :
    admitWrite addr data seg (s.withMap m) = (admitWrite addr data seg s).withMap m := by
  unfold admitWrite
  rw [State.withMap_memSize, show (s.withMap m).ctl = s.ctl from rfl, show (s.withMap m).write = s.write from rfl]
  split_ifs <;> rfl

theorem shadowWrite_withMap (addr : Nat) (data : List Byte) (h : Hit) (s : State) (m : MapUnit) :
    shadowWrite addr data h (s.withMap m) = (shadowWrite addr data h s).withMap m := by
  unfold shadowWrite
  rw [show (s.withMap m).store = s.store from rfl]
  cases s.store.seg h.seg with
  | none => rfl
  | some r => dsimp only; split_ifs <;> rfl

theorem routeWriteHit_withMap (addr : Nat) (data : List Byte) (h : Hit) (s : State) (m : MapUnit) :
    routeWriteHit addr data h (s.withMap m) = (routeWriteHit addr data h s).withMap m := by
  unfold routeWriteHit
  cases h.wpol with
  | discard => rfl
  | through => exact admitWrite_withMap ..
  | shadow => exact shadowWrite_withMap ..
  | fault => rfl

/-! ### The route leaves the map alone -/

/-- A route that does not see the map does not change it: with the map it has, it answers as it does. -/
theorem map_of_withMap {route : State → State} (h : ∀ s m, route (s.withMap m) = (route s).withMap m) (s : State) :
    (route s).map = s.map := by
  calc (route s).map = (route (s.withMap s.map)).map := rfl
    _ = s.map := by rw [h]; rfl

/-! ### The events of a READ -/

theorem exec_read (tag : Tag) (addr : Addr) (len : Nat) (part : PresentPart) (s : State) :
    exec (.read tag addr ⟨len, part⟩) s = .next (presentRead ⟨tag, addr.toNat, len⟩ part s) := rfl

theorem exec_write (addr : Addr) (data : List Byte) (part : PresentPart) (s : State) :
    exec (.write addr ⟨data, part⟩) s = .next (presentWrite addr.toNat data part s) := rfl

theorem presentRead_whole {s : State} (h : s.port.looked = none) (q : ReadRequest) :
    presentRead q .whole s = acceptRead q (routeHit q) s := by
  unfold presentRead; rw [h]

theorem presentRead_lookup {s : State} (h : s.port.looked = none) (q : ReadRequest) :
    presentRead q .lookup s = acceptRead q (fun h s => s.setLooked (some (.read q h))) s := by
  unfold presentRead; rw [h]

theorem presentRead_enquiry {s : State} {q : ReadRequest} {h : Hit} (hl : s.port.looked = some (.read q h)) :
    presentRead q .enquiry s = routeHit q h (s.setLooked none) := by
  unfold presentRead; rw [hl]; exact if_pos rfl

/-- While a presentation waits no other begins (R51). -/
theorem presentRead_waiting {s : State} (h : s.port.looked ≠ none) {part : PresentPart} (hp : part ≠ .enquiry)
    (q : ReadRequest) : presentRead q part s = s := by
  rcases presentRead_spec q part s with ⟨-, hl, -⟩ | ⟨-, hl, -⟩ | ⟨_, he, -⟩ | e
  · exact absurd hl h
  · exact absurd hl h
  · exact absurd he hp
  · exact e

/-- An enquiry is made only for the READ that waits (log 25). -/
theorem presentRead_other {s : State} {q : ReadRequest} (h : ∀ hit, s.port.looked ≠ some (.read q hit)) :
    presentRead q .enquiry s = s := by
  rcases presentRead_spec q .enquiry s with ⟨hp, -⟩ | ⟨hp, -⟩ | ⟨hit, -, hl, -⟩ | e
  · cases hp
  · cases hp
  · exact absurd hl (h hit)
  · exact e

theorem presentWrite_whole {s : State} (h : s.port.looked = none) (addr : Nat) (data : List Byte) :
    presentWrite addr data .whole s = acceptWrite addr data (routeWriteHit addr data) s := by
  unfold presentWrite; rw [h]

theorem presentWrite_lookup {s : State} (h : s.port.looked = none) (addr : Nat) (data : List Byte) :
    presentWrite addr data .lookup s = acceptWrite addr data (lookWriteHit addr data) s := by
  unfold presentWrite; rw [h]

theorem presentWrite_enquiry {s : State} {addr : Nat} {data : List Byte} {h : Hit}
    (hl : s.port.looked = some (.write addr data h)) :
    presentWrite addr data .enquiry s = routeWriteHit addr data h (s.setLooked none) := by
  unfold presentWrite; rw [hl]; exact if_pos ⟨rfl, rfl⟩

/-- While a presentation waits no other begins (R51). -/
theorem presentWrite_waiting {s : State} (h : s.port.looked ≠ none) {part : PresentPart} (hp : part ≠ .enquiry)
    (addr : Nat) (data : List Byte) : presentWrite addr data part s = s := by
  rcases presentWrite_spec addr data part s with ⟨-, hl, -⟩ | ⟨-, hl, -⟩ | ⟨_, he, -⟩ | e
  · exact absurd hl h
  · exact absurd hl h
  · exact absurd he hp
  · exact e

/-- An enquiry is made only for the WRITE that waits (log 25). -/
theorem presentWrite_other {s : State} {addr : Nat} {data : List Byte}
    (h : ∀ hit, s.port.looked ≠ some (.write addr data hit)) : presentWrite addr data .enquiry s = s := by
  rcases presentWrite_spec addr data .enquiry s with ⟨hp, -⟩ | ⟨hp, -⟩ | ⟨hit, -, hl, -⟩ | e
  · cases hp
  · cases hp
  · exact absurd hl (h hit)
  · exact e

/-! ### A segment found UNDECLARED -/

/-- A READ whose segment is gone goes downstream as a miss (R57). -/
theorem routeHit_undeclared {s : State} {h : Hit} (hs : s.store.seg h.seg = none) (q : ReadRequest) :
    routeHit q h s = readDownstream q none none s := by simp [routeHit, hs]

/-- The change of a segment that is not declared changes no record. -/
theorem Store.update_undeclared {st : Store} {i : SegId} (h : st.seg i = none) (f : SegRecord → SegRecord)
    (j : SegId) : (st.update i f).seg j = st.seg j := by
  rw [Store.seg_update]
  split
  · rename_i hj; rw [hj, h]; rfl
  · rfl

theorem discardWrite_frame (seg : SegId) (s : State) : SameBut [.outputs, .store] s (discardWrite seg s) := by
  intro p hp; cases p <;> simp_all [Part.same, discardWrite]

theorem State.setLooked_frame (s : State) (p : Option Looked) : SameBut [.port] s (s.setLooked p) := by
  intro x hx; cases x <;> simp_all [Part.same]

/-- A WRITE under DISCARD whose segment is gone is answered WACK with nothing counted (R103, R104). -/
theorem discardWrite_undeclared {s : State} {seg : SegId} (h : s.store.seg seg = none) :
    (discardWrite seg s).outputs = s.outputs ++ [.answer .wack] ∧
      (∀ i, (discardWrite seg s).store.seg i = s.store.seg i) ∧
      (discardWrite seg s).store.free = s.store.free ∧ (discardWrite seg s).store.sram = s.store.sram ∧
      (discardWrite seg s).store.residence = s.store.residence :=
  ⟨rfl, Store.update_undeclared h _, rfl, rfl, rfl⟩

theorem routeWriteHit_discard {h : Hit} (hp : h.wpol = .discard) (addr : Nat) (data : List Byte) (s : State) :
    routeWriteHit addr data h s = discardWrite h.seg s := by simp [routeWriteHit, hp]

theorem routeWriteHit_shadow {h : Hit} (hp : h.wpol = .shadow) (addr : Nat) (data : List Byte) (s : State) :
    routeWriteHit addr data h s = shadowWrite addr data h s := by simp [routeWriteHit, hp]

/-- A WRITE under SHADOW whose segment is gone is refused NOT_RESIDENT (R103, R105). -/
theorem shadowWrite_undeclared {s : State} {h : Hit} (hs : s.store.seg h.seg = none) (addr : Nat)
    (data : List Byte) :
    shadowWrite addr data h s = refuseWrite addr data.length .notResident (some h.seg) s := by
  simp [shadowWrite, hs]

/-! ### The obligation -/

/-- The lookup of a READ that passes the checks: its hit kept, or the whole presentation made (R54, R57). -/
theorem exec_read_lookup {tag : Tag} {addr : Addr} {len : Nat} {s : State} (hl : s.port.looked = none)
    (hr : s.startup.stage = .run) (hw : addr.toNat % 32 + len ≤ 32) (ht : tag ∉ s.port.tags) :
    (∀ h, s.map.lookup addr.toNat len = some h → exec (.read tag addr ⟨len, .lookup⟩) s = .next { s with
      port := { s.port with looked := some (.read ⟨tag, addr.toNat, len⟩ h) } }) ∧
    (s.map.lookup addr.toNat len = none →
      exec (.read tag addr ⟨len, .lookup⟩) s = exec (.read tag addr ⟨len, .whole⟩) s) := by
  have hacc := acceptRead_passed (q := ⟨tag, addr.toNat, len⟩) hr hw ht
  refine ⟨fun h hh => ?_, fun hh => ?_⟩
  · rw [exec_read, presentRead_lookup hl, hacc, hh]; rfl
  · rw [exec_read, exec_read, presentRead_lookup hl, presentRead_whole hl, hacc, hacc, hh]

/-- The enquiry of a READ does what the whole presentation would where the lookup gives its hit (R57, log 25). -/
theorem exec_read_enquiry {tag : Tag} {addr : Addr} {len : Nat} {s : State} {h : Hit}
    (hl : s.port.looked = some (.read ⟨tag, addr.toNat, len⟩ h)) {m : MapUnit} (hr : s.startup.stage = .run)
    (hw : addr.toNat % 32 + len ≤ 32) (ht : tag ∉ s.port.tags) (hm : m.lookup addr.toNat len = some h) :
    ∃ t, exec (.read tag addr ⟨len, .enquiry⟩) s = .next t ∧ t.map = s.map ∧
      exec (.read tag addr ⟨len, .whole⟩) ((s.setLooked none).withMap m) = .next (t.withMap m) := by
  refine ⟨routeHit ⟨tag, addr.toNat, len⟩ h (s.setLooked none), ?_, ?_, ?_⟩
  · rw [exec_read, presentRead_enquiry hl]
  · exact map_of_withMap (routeHit_withMap _ h) (s.setLooked none)
  · have hacc := acceptRead_passed (q := ⟨tag, addr.toNat, len⟩) (s := (s.setLooked none).withMap m) hr hw ht
    have hm' : ((s.setLooked none).withMap m).map.lookup addr.toNat len = some h := hm
    rw [exec_read, presentRead_whole rfl, hacc, hm', ← routeHit_withMap]

/-- The lookup of a WRITE that passes the checks: its hit kept under DISCARD and SHADOW, or the whole presentation
made (R103). -/
theorem exec_write_lookup {addr : Addr} {data : List Byte} {s : State} (hl : s.port.looked = none)
    (hr : s.startup.stage = .run) (hw : addr.toNat % 32 + data.length ≤ 32) :
    (∀ h, s.map.lookup addr.toNat data.length = some h → h.wpol = .discard ∨ h.wpol = .shadow →
      exec (.write addr ⟨data, .lookup⟩) s = .next { s with
        port := { s.port with looked := some (.write addr.toNat data h) } }) ∧
    ((∀ h, s.map.lookup addr.toNat data.length = some h → h.wpol = .through ∨ h.wpol = .fault) →
      exec (.write addr ⟨data, .lookup⟩) s = exec (.write addr ⟨data, .whole⟩) s) := by
  have hacc := acceptWrite_passed (addr := addr.toNat) (data := data) hr hw
  refine ⟨fun h hh hp => ?_, fun hp => ?_⟩
  · rw [exec_write, presentWrite_lookup hl, hacc, hh]
    rcases hp with hp | hp <;> simp [lookWriteHit, hp, WritePolicy.enquires] <;> rfl
  · rw [exec_write, exec_write, presentWrite_lookup hl, presentWrite_whole hl, hacc, hacc]
    cases hh : s.map.lookup addr.toNat data.length with
    | none => rfl
    | some h => rcases hp h hh with hp | hp <;> simp [lookWriteHit, hp, WritePolicy.enquires]

/-- The enquiry of a WRITE does what the whole presentation would where the lookup gives its hit (R103, log 25). -/
theorem exec_write_enquiry {addr : Addr} {data : List Byte} {s : State} {h : Hit}
    (hl : s.port.looked = some (.write addr.toNat data h)) {m : MapUnit} (hr : s.startup.stage = .run)
    (hw : addr.toNat % 32 + data.length ≤ 32) (hm : m.lookup addr.toNat data.length = some h) :
    ∃ t, exec (.write addr ⟨data, .enquiry⟩) s = .next t ∧ t.map = s.map ∧
      exec (.write addr ⟨data, .whole⟩) ((s.setLooked none).withMap m) = .next (t.withMap m) := by
  refine ⟨routeWriteHit addr.toNat data h (s.setLooked none), ?_, ?_, ?_⟩
  · rw [exec_write, presentWrite_enquiry hl]
  · exact map_of_withMap (routeWriteHit_withMap _ data h) (s.setLooked none)
  · have hacc := acceptWrite_passed (addr := addr.toNat) (data := data) (s := (s.setLooked none).withMap m) hr hw
    have hm' : ((s.setLooked none).withMap m).map.lookup addr.toNat data.length = some h := hm
    rw [exec_write, presentWrite_whole rfl, hacc, hm', ← routeWriteHit_withMap]

/-- Settles O6: the lookup by the acceptance checks, the enquiry by a route that does not see the map. -/
theorem presentationInParts : Obligations.PresentationInParts := by
  refine ⟨fun tag addr len s hl hr hw ht => exec_read_lookup hl hr hw ht,
    fun tag addr len s h hl => ⟨fun m u hr hw ht hm hu => hu ▸ exec_read_enquiry hl hr hw ht hm, fun hs => ?_⟩,
    fun addr data s hl hr hw => exec_write_lookup hl hr hw,
    fun addr data s h hl => ⟨fun m u hr hw hm hu => hu ▸ exec_write_enquiry hl hr hw hm,
      fun hs => ⟨fun hp => ?_, fun hp => ?_⟩⟩,
    fun tag addr len data s => ⟨fun hl part hp => ⟨?_, ?_⟩, fun hl => ?_, fun hl => ?_⟩⟩
  · rw [exec_read, presentRead_enquiry hl, routeHit_undeclared (s := s.setLooked none) hs]
    unfold readDownstream
    rw [show (s.setLooked none).memSize = s.memSize from State.memSize_congr rfl, State.setLooked_ctl]
    split
    · rfl
    · split <;> rfl
  · obtain ⟨hout, hseg, hfree, hsram, hres⟩ := discardWrite_undeclared (s := s.setLooked none) hs
    refine ⟨discardWrite h.seg (s.setLooked none), ?_, hout, rfl, hseg, hfree, hsram, hres,
      ((s.setLooked_frame none).mono (by simp)).trans ((discardWrite_frame _ _).mono (by simp))⟩
    rw [exec_write, presentWrite_enquiry hl, routeWriteHit_discard hp]
  · rw [exec_write, presentWrite_enquiry hl, routeWriteHit_shadow hp,
      shadowWrite_undeclared (s := s.setLooked none) hs]
    rfl
  · rw [exec_read, presentRead_waiting hl hp]
  · rw [exec_write, presentWrite_waiting hl hp]
  · rw [exec_read, presentRead_other hl]
  · rw [exec_write, presentWrite_other hl]

end Sys2Proof.Machine
end

section
/-! PROOFS. Stages CATALOG, MAP and PRELOAD of start-up, event by event (R147 to R149). -/

namespace Sys2Proof.Machine

/-! ### Stages -/

theorem State.setOutcome_eq (s : State) (o : StartOutcome) : s.setOutcome o = { s with startup := { s.startup with
    outcome := if s.startup.outcome = .ok then o else s.startup.outcome } } := by
  unfold State.setOutcome
  split <;> rfl

/-- In stage CATALOG a catalog's end is the sequencer's (R147). -/
theorem catalogEnd_ok {s : State} (h : s.startup.stage = .catalog) (m k : Nat) :
    catalogEnd (.ok m k) s = ({ s with startup := { s.startup with catalog := none } } : State).enterMap :=
  if_pos h

theorem catalogEnd_bad {s : State} (h : s.startup.stage = .catalog) (e : CatalogFault) :
    catalogEnd (.bad e) s = ({ s with startup := { s.startup with
      catalog := none
      outcome := if s.startup.outcome = .ok then .badCatalog else s.startup.outcome } } : State).enterMap :=
  (if_pos h).trans (congrArg State.enterMap (State.setOutcome_eq _ _))

theorem State.entriesLeft_eq {s : State} {r : BootRecord} (h : s.startup.record = some r) :
    s.entriesLeft = r.entries.drop s.startup.written := by
  unfold State.entriesLeft; rw [h]

theorem State.preloadsLeft_eq {s : State} {r : BootRecord} (h : s.startup.record = some r) :
    s.preloadsLeft = r.preloads.drop s.startup.position := by
  unfold State.preloadsLeft; rw [h]

/-- PRELOAD while an id is left, COMMIT otherwise (R149). -/
theorem State.enterPreload_eq {s : State} {r : BootRecord} (h : s.startup.record = some r) :
    s.enterPreload = { s with startup := { s.startup with
      stage := if r.preloads.drop s.startup.position = [] then .commit else .preload } } := by
  unfold State.enterPreload
  rw [State.preloadsLeft_eq h]
  cases r.preloads.drop s.startup.position <;> rfl

/-- With no entry left the stage after CATALOG is the one PRELOAD begins with (R148). -/
theorem State.enterMap_done {s : State} (h : s.entriesLeft = []) : s.enterMap = s.enterPreload := by
  unfold State.enterMap State.enterPreload
  rw [h]
  cases s.preloadsLeft <;> rfl

theorem State.enterMap_left {s : State} (h : s.entriesLeft ≠ []) :
    s.enterMap = { s with startup := { s.startup with stage := .map } } := by
  unfold State.enterMap
  cases he : s.entriesLeft with
  | nil => exact absurd he h
  | cons e rest => rfl

/-! ### Stage MAP (R148) -/

theorem sequencerEvent_map {s : State} (h : s.startup.stage = .map) : sequencerEvent s = mapEvent s := by
  unfold sequencerEvent; rw [h]

theorem sequencerEvent_preload {s : State} (h : s.startup.stage = .preload) :
    sequencerEvent s = preloadEvent s := by
  unfold sequencerEvent; rw [h]

theorem mapEvent_cons {s : State} {e : RawEntry} {rest : List RawEntry} (h : s.entriesLeft = e :: rest) :
    mapEvent s = (writeBootEntry s e).countEntry.enterMap := by
  unfold mapEvent; rw [h]

/-- An entry that the record names and that is legal is written into SHADOW (R148). -/
theorem writeBootEntry_of_legal {s : State} {r : RawEntry} {i : MapIndex} {seg : SegId} {w : WritePolicy}
    {a : AbsencePolicy} (h : r.Names i seg w a) (hl : (r.entry seg w a).Legal) :
    writeBootEntry s r =
      { s with map := { s.map with shadow := s.map.shadow.put i (some (r.entry seg w a)) } } := by
  unfold writeBootEntry MapUnit.writeEntry
  rw [RawEntry.check_of_legal h hl]

/-- An entry that fails a check sets map faulted and BAD_MAP (R148). -/
theorem writeBootEntry_of_not_legal {s : State} {r : RawEntry}
    (h : ∀ i seg w a, r.Names i seg w a → ¬ (r.entry seg w a).Legal) :
    writeBootEntry s r = { s with startup := { s.startup with
      mapFaulted := true
      outcome := if s.startup.outcome = .ok then .badMap else s.startup.outcome } } := by
  unfold writeBootEntry MapUnit.writeEntry
  rw [RawEntry.check_of_not_legal h]
  exact State.setOutcome_eq _ _

/-- Writing an entry does not count it (R148). -/
theorem writeBootEntry_written (s : State) (e : RawEntry) :
    (writeBootEntry s e).startup.written = s.startup.written := by
  rcases s.map.writeEntry_spec e with ⟨i, seg, w, a, hn, hl, -⟩ | ⟨hno, -⟩
  · rw [writeBootEntry_of_legal hn hl]
  · rw [writeBootEntry_of_not_legal hno]

/-- An event of stage MAP (R148). -/
theorem sequencerEvent_entry {s : State} {r : BootRecord} {e : RawEntry} {rest : List RawEntry}
    (hs : s.startup.stage = .map) (hr : s.startup.record = some r)
    (he : r.entries.drop s.startup.written = e :: rest) :
    sequencerEvent s = ({ writeBootEntry s e with startup := { (writeBootEntry s e).startup with
      written := s.startup.written + 1 } } : State).enterMap := by
  rw [sequencerEvent_map hs, mapEvent_cons ((State.entriesLeft_eq hr).trans he), ← writeBootEntry_written s e]
  rfl

/-! ### A fill begun from a catalog segment (R80, R85) -/

/-- Evictions change no record but those of the collected segments (R38). -/
theorem Store.evictUntil_seg (n : Nat) (cause : SegId) {is : List SegId} {j : SegId} (hj : j ∉ is) (st : Store) :
    (Store.evictUntil n cause is st).1.seg j = st.seg j := by
  induction is generalizing st with
  | nil => rfl
  | cons i is ih =>
    rw [List.mem_cons, not_or] at hj
    obtain ⟨hji, hjis⟩ := hj
    simp only [Store.evictUntil]
    split
    · rfl
    · exact (ih hjis (st.evict i)).trans ((Store.evict_seg ..).trans (if_neg hji))

/-- An allocation changes no record of a segment that is not RESIDENT (R37). -/
theorem Store.allocate_seg {st st' : Store} {n : Nat} {cause : SegId} {bs : List Block} {evs : List Event}
    (h : st.allocate n cause = some (bs, st', evs)) {j : SegId} {r : SegRecord} (hr : st.seg j = some r)
    (hn : r.state ≠ .resident) : st'.seg j = st.seg j := by
  obtain ⟨-, st1, he, -, rfl⟩ := Store.allocate_some h
  have hj : j ∉ st.candidates := by simp [Store.candidates, Store.evictable, hr, hn]
  calc st1.seg j = (Store.evictUntil n cause st.candidates st).1.seg j := by rw [he]
    _ = st.seg j := Store.evictUntil_seg n cause hj st

/-- An allocation leaves overlay memory as it was (R37). -/
theorem Store.allocate_sram {st st' : Store} {n : Nat} {cause : SegId} {bs : List Block} {evs : List Event}
    (h : st.allocate n cause = some (bs, st', evs)) : st'.sram = st.sram := by
  obtain ⟨-, st1, he, -, rfl⟩ := Store.allocate_some h
  calc st1.sram = (Store.evictUntil n cause st.candidates st).1.sram := by rw [he]
    _ = st.sram := Store.evictUntil_sram ..

/-- The record of the segment a fill enters FILLING with, and the others (R31). -/
theorem State.enterFilling_seg (s : State) (i j : SegId) (origin : Origin) (bs : List Block) (st : Store)
    (evs : List Event) : (s.enterFilling i origin bs st evs).store.seg j =
      if j = i then (st.seg i).map fun r => { r with state := .filling, blocks := bs, origin := some origin }
      else st.seg j := Store.seg_update ..

theorem Store.imageOf_catalog {st : Store} {i : SegId} {r : SegRecord} {image : Nat} (hr : st.seg i = some r)
    (hs : r.source = .catalog image) : st.imageOf i = image := by
  unfold Store.imageOf; rw [hr]; dsimp only; rw [hs]

theorem Store.lengthOf_declared {st : Store} {i : SegId} {r : SegRecord} (hr : st.seg i = some r) :
    st.lengthOf i = r.length := by
  unfold Store.lengthOf; rw [hr]

/-- The loader takes a chunk inside the memory on a link that is not STALLED (R123). -/
theorem Controller.arrive_queued {c : Controller} {size a n : Nat} (hl : c.link ≠ .stalled) (hs : a + n ≤ size)
    (r : Requester) :
    (c.arrive size r a n).2 = { c with loader := c.loader ++ [⟨r, a, n, false, false⟩] } := by
  rcases c.arrive_spec size r a n with ⟨h, -⟩ | ⟨-, h, -⟩ | ⟨-, -, h⟩
  · omega
  · exact absurd h hl
  · rw [h]

/-- The first chunk of a catalog fill is handed to the loader (R82). -/
theorem State.requestChunk_first {s : State} {i : SegId} {origin : Origin} {crc : BitVec 16} {r : SegRecord}
    {image : Nat} (he : s.fill.engine = .loadingCatalog i origin 0 crc) (hr : s.store.seg i = some r)
    (hsrc : r.source = .catalog image) (hl : s.ctl.link ≠ .stalled) (hsize : image + r.length ≤ s.memSize) :
    s.requestChunk = { s with ctl := { s.ctl with loader := s.ctl.loader ++
      [⟨.fill, image, min (32 - image % 32) r.length, false, false⟩] } } := by
  have hw : windowPart image (image + r.length) = min (32 - image % 32) r.length := by
    simp [windowPart, Config.windowBytes]
  unfold State.requestChunk
  rw [he]
  dsimp only
  rw [Store.imageOf_catalog hr hsrc, Store.lengthOf_declared hr, Nat.add_zero, hw,
    Controller.arrive_queued hl (by omega)]

/-- A catalog fill whose checks R80 pass, before its first chunk is requested: what it has written. -/
def State.catalogFilling (s : State) (i : SegId) (origin : Origin) (bs : List Block) (st : Store)
    (evs : List Event) : State :=
  (s.enterFilling i origin bs st evs).setEngine (.loadingCatalog i origin 0 crc16Init)

theorem startCatalogFill_stalled {s : State} (hl : s.ctl.link = .stalled) (i : SegId) (r : SegRecord)
    (image : Nat) (origin : Origin) : startCatalogFill i r image origin s = failFill i .dnStalled s := if_pos hl

theorem startCatalogFill_long {s : State} {r : SegRecord} {image : Nat} (hl : s.ctl.link ≠ .stalled)
    (hs : s.memSize < image + r.length) (i : SegId) (origin : Origin) :
    startCatalogFill i r image origin s = failFill i .length s := (if_neg hl).trans (if_pos hs)

theorem startCatalogFill_noSpace {s : State} {r : SegRecord} {image : Nat} {i : SegId}
    (hl : s.ctl.link ≠ .stalled) (hs : ¬ s.memSize < image + r.length)
    (ha : s.store.allocate (blocksFor r.length) i = none) (origin : Origin) :
    startCatalogFill i r image origin s = failFill i .noSpace s := by
  unfold startCatalogFill
  rw [if_neg hl, if_neg hs, ha]

/-- A catalog fill that passes the three checks: the segment FILLING, the first chunk requested (R80, R82). -/
theorem startCatalogFill_begun {s : State} {r : SegRecord} {image : Nat} {i : SegId} {bs : List Block}
    {st : Store} {evs : List Event} (hr : s.store.seg i = some r) (hsrc : r.source = .catalog image)
    (hn : r.state ≠ .resident) (hl : s.ctl.link ≠ .stalled) (hs : ¬ s.memSize < image + r.length)
    (ha : s.store.allocate (blocksFor r.length) i = some (bs, st, evs)) (origin : Origin) :
    startCatalogFill i r image origin s =
      { s.catalogFilling i origin bs st evs with ctl := { s.ctl with loader := s.ctl.loader ++
        [⟨.fill, image, min (32 - image % 32) r.length, false, false⟩] } } := by
  have hseg : (s.catalogFilling i origin bs st evs).store.seg i =
      some { r with state := .filling, blocks := bs, origin := some origin } := by
    refine (s.enterFilling_seg i i origin bs st evs).trans ?_
    rw [if_pos rfl, Store.allocate_seg ha hr hn, hr]; rfl
  have hc := State.requestChunk_first (s := s.catalogFilling i origin bs st evs) rfl hseg hsrc hl
    (Nat.le_of_not_lt hs)
  unfold startCatalogFill
  rw [if_neg hl, if_neg hs, ha]
  exact hc

/-! ### Stage PRELOAD (R149) -/

theorem preloadEvent_waits {s : State} (h : s.fill.engine ≠ .idle ∨ s.fill.queue ≠ []) : preloadEvent s = s := by
  unfold preloadEvent
  rw [if_neg (by rw [not_and_or]; exact h)]

/-- A preload that ends at once (R149). -/
theorem preloadEvent_over {s s1 : State} {id : Byte} {rest : List Byte} {failed : Bool}
    (he : s.fill.engine = .idle) (hq : s.fill.queue = []) (hl : s.preloadsLeft = id :: rest)
    (hr : requestPreload id s = (s1, some failed)) : preloadEvent s = (s1.countPreload failed).enterPreload := by
  unfold preloadEvent
  rw [if_pos ⟨he, hq⟩, hl]
  dsimp only
  rw [hr]

/-- A preload whose fill has begun (R149). -/
theorem preloadEvent_loading {s s1 : State} {id : Byte} {rest : List Byte}
    (he : s.fill.engine = .idle) (hq : s.fill.queue = []) (hl : s.preloadsLeft = id :: rest)
    (hr : requestPreload id s = (s1, none)) : preloadEvent s = s1 := by
  unfold preloadEvent
  rw [if_pos ⟨he, hq⟩, hl]
  dsimp only
  rw [hr]

theorem requestPreload_badId {id : Byte} (h : segId? id.toNat = none) (s : State) :
    requestPreload id s = (s, some true) := by
  unfold requestPreload; rw [h]

theorem requestPreload_undeclared {id : Byte} {i : SegId} (h : segId? id.toNat = some i) {s : State}
    (hi : s.store.seg i = none) : requestPreload id s = (s, some true) := by
  unfold requestPreload; rw [h]; dsimp only; rw [hi]

/-- What is requested of a declared segment, by its state and source (R85, R149). -/
theorem requestPreload_declared {id : Byte} {i : SegId} (h : segId? id.toNat = some i) {s : State}
    {r : SegRecord} (hr : s.store.seg i = some r) :
    (r.state = .resident → requestPreload id s = (s, some false)) ∧
    (r.state ≠ .resident → (r.source = .host ∨ (r.state ≠ .absent ∧ r.state ≠ .failed)) →
      requestPreload id s = (s, some true)) ∧
    ∀ (image : Nat) (prior : Prior), r.source = .catalog image →
      ((r.state = .absent ∧ prior = .absent) ∨ (r.state = .failed ∧ prior = .failed)) →
      requestPreload id s = (startCatalogFill i r image (.direct prior) s,
        if (startCatalogFill i r image (.direct prior) s).fill.engine = .idle then some true else none) := by
  unfold requestPreload
  rw [h]
  dsimp only
  rw [hr]
  dsimp only
  refine ⟨fun hs => by rw [hs], fun hn ho => ?_, fun image prior hsrc hp => ?_⟩
  · split
    · exact absurd ‹_› hn
    · simp_all
    · simp_all
    · rfl
  · rcases hp with ⟨hs, rfl⟩ | ⟨hs, rfl⟩ <;> rw [hs, hsrc]

/-- A fill that fails at once leaves the engine IDLE (R96). -/
theorem failFill_idle (i : SegId) (reason : FailReason) (s : State) :
    (failFill i reason s).fill.engine = .idle := rfl

/-- What the sequencer's event does with a catalog segment that may be filled (R85, R149). -/
theorem sequencerEvent_catalogFill {s : State} {id : Byte} {rest : List Byte} {i : SegId} {r : SegRecord}
    {image : Nat} {prior : Prior} (hs : s.startup.stage = .preload) (he : s.fill.engine = .idle)
    (hq : s.fill.queue = []) (hl : s.preloadsLeft = id :: rest) (hid : segId? id.toNat = some i)
    (hr : s.store.seg i = some r) (hsrc : r.source = .catalog image)
    (hp : (r.state = .absent ∧ prior = .absent) ∨ (r.state = .failed ∧ prior = .failed)) :
    (∀ reason, startCatalogFill i r image (.direct prior) s = failFill i reason s →
      sequencerEvent s = ((failFill i reason s).countPreload true).enterPreload) ∧
    ((startCatalogFill i r image (.direct prior) s).fill.engine ≠ .idle →
      sequencerEvent s = startCatalogFill i r image (.direct prior) s) := by
  have hreq := (requestPreload_declared hid hr).2.2 image prior hsrc hp
  rw [sequencerEvent_preload hs]
  refine ⟨fun reason hf => ?_, fun hne => ?_⟩
  · rw [hf, failFill_idle, if_pos rfl] at hreq
    exact preloadEvent_over he hq hl hreq
  · rw [if_neg hne] at hreq
    exact preloadEvent_loading he hq hl hreq

/-- What a catalog fill begun has written, and what it leaves alone (R80, R82, R31). -/
theorem catalogFilling_frame (s : State) (i : SegId) (origin : Origin) (bs : List Block) (st : Store)
    (evs : List Event) (c : Controller) : SameBut [.fill, .store, .events, .ctl] s
      { s.catalogFilling i origin bs st evs with ctl := c } := by
  intro p hp; cases p <;> simp_all [Part.same, State.catalogFilling, State.enterFilling]

/-- The three checks of R80 on a preload from the catalog, in order, and the fill that passes them (R85, R149). -/
theorem sequencerEvent_catalogPreload {s : State} {id : Byte} {rest : List Byte} {i : SegId} {r : SegRecord}
    {image : Nat} {prior : Prior} (hs : s.startup.stage = .preload) (he : s.fill.engine = .idle)
    (hq : s.fill.queue = []) (hl : s.preloadsLeft = id :: rest) (hid : segId? id.toNat = some i)
    (hr : s.store.seg i = some r) (hsrc : r.source = .catalog image)
    (hp : (r.state = .absent ∧ prior = .absent) ∨ (r.state = .failed ∧ prior = .failed)) :
    (s.ctl.link = .stalled → sequencerEvent s = ((failFill i .dnStalled s).countPreload true).enterPreload) ∧
    (s.ctl.link ≠ .stalled → s.memSize < image + r.length →
      sequencerEvent s = ((failFill i .length s).countPreload true).enterPreload) ∧
    (s.ctl.link ≠ .stalled → ¬ s.memSize < image + r.length →
      (s.store.allocate (blocksFor r.length) i = none →
        sequencerEvent s = ((failFill i .noSpace s).countPreload true).enterPreload) ∧
      ∀ bs st evs, s.store.allocate (blocksFor r.length) i = some (bs, st, evs) →
        sequencerEvent s = { s.catalogFilling i (.direct prior) bs st evs with
          ctl := { s.ctl with loader := s.ctl.loader ++
            [⟨.fill, image, min (32 - image % 32) r.length, false, false⟩] } }) := by
  obtain ⟨hfail, hbegun⟩ := sequencerEvent_catalogFill hs he hq hl hid hr hsrc hp
  have hn : r.state ≠ .resident := by rcases hp with ⟨h, -⟩ | ⟨h, -⟩ <;> rw [h] <;> nofun
  refine ⟨fun hlink => hfail _ (startCatalogFill_stalled hlink ..),
    fun hlink hsize => hfail _ (startCatalogFill_long hlink hsize ..),
    fun hlink hsize => ⟨fun ha => hfail _ (startCatalogFill_noSpace hlink hsize ha _), fun bs st evs ha => ?_⟩⟩
  have hb := startCatalogFill_begun hr hsrc hn hlink hsize ha (.direct prior)
  rw [← hb]
  exact hbegun (by rw [hb]; nofun)

/-- An event of stage PRELOAD, by the id, the segment and its fill (R149). -/
theorem sequencerEvent_nextPreload {s : State} {b : BootRecord} {id : Byte} {rest : List Byte}
    (hs : s.startup.stage = .preload) (hb : s.startup.record = some b)
    (hl : b.preloads.drop s.startup.position = id :: rest) :
    (s.fill.engine ≠ .idle ∨ s.fill.queue ≠ [] → sequencerEvent s = s) ∧
    (s.fill.engine = .idle → s.fill.queue = [] →
      (segId? id.toNat = none → sequencerEvent s = (s.countPreload true).enterPreload) ∧
      ∀ i, segId? id.toNat = some i →
        (s.store.seg i = none → sequencerEvent s = (s.countPreload true).enterPreload) ∧
        ∀ r, s.store.seg i = some r →
          (r.state = .resident → sequencerEvent s = (s.countPreload false).enterPreload) ∧
          (r.state ≠ .resident → (r.source = .host ∨ (r.state ≠ .absent ∧ r.state ≠ .failed)) →
            sequencerEvent s = (s.countPreload true).enterPreload)) := by
  have hleft := (State.preloadsLeft_eq hb).trans hl
  rw [sequencerEvent_preload hs]
  refine ⟨preloadEvent_waits, fun he hq => ⟨fun hid => ?_, fun i hid => ⟨fun hi => ?_, fun r hr => ?_⟩⟩⟩
  · exact preloadEvent_over he hq hleft (requestPreload_badId hid s)
  · exact preloadEvent_over he hq hleft (requestPreload_undeclared hid hi)
  · obtain ⟨hres, hother, -⟩ := requestPreload_declared hid hr
    exact ⟨fun h => preloadEvent_over he hq hleft (hres h), fun h ho => preloadEvent_over he hq hleft (hother h ho)⟩

/-- In the stages in which the sequencer waits or has ended it has no event of its own (log 2). -/
theorem sequencerEvent_waits {s : State} (h : s.startup.stage ∈ [.poll, .record, .catalog, .run]) :
    sequencerEvent s = s := by
  rcases sequencerEvent_spec s with ⟨hs, -⟩ | ⟨hs, -⟩ | ⟨hs, -, -⟩ | ⟨hs, -, -⟩ | ⟨-, -, -, e⟩
  · simp [hs] at h
  · simp [hs] at h
  · simp [hs] at h
  · simp [hs] at h
  · exact e

/-- Settles O45, stage by stage. -/
theorem startupMapAndPreloads : Obligations.StartupMapAndPreloads := by
  refine ⟨fun s hs => ⟨catalogEnd_ok hs, catalogEnd_bad hs⟩, fun s r hr => ⟨State.enterPreload_eq hr, ?_, ?_⟩,
    fun s r e rest u hs hr he hu => hu ▸ sequencerEvent_entry hs hr he, fun s e => ⟨?_, ?_⟩,
    fun s r id rest next hs hr hl hnext => ?_, fun s failed taken hs => ?_, fun s hs => sequencerEvent_waits hs⟩
  · exact fun h => State.enterMap_done ((State.entriesLeft_eq hr).trans h)
  · exact fun h => State.enterMap_left (by rw [State.entriesLeft_eq hr]; exact h)
  · intro i seg w a hi hseg hw ha hlegal
    rw [writeBootEntry_of_legal ⟨hi, hseg, hw, ha⟩ hlegal]
    exact ⟨State.setMap_frame _ _, rfl, rfl, fun j => Bank.getElem_put ..⟩
  · exact fun h => writeBootEntry_of_not_legal fun i seg w a ⟨hi, hseg, hw, ha⟩ => h i seg w a hi hseg hw ha
  · subst hnext
    obtain ⟨hwait, hevent⟩ := sequencerEvent_nextPreload hs hr hl
    refine ⟨hwait, fun he hq => ?_⟩
    obtain ⟨hbad, hdecl⟩ := hevent he hq
    refine ⟨hbad, fun i hid => ⟨(hdecl i hid).1, fun r' hr' => ?_⟩⟩
    obtain ⟨hres, hother⟩ := (hdecl i hid).2 r' hr'
    refine ⟨hres, hother, fun image prior hsrc hp => ?_⟩
    obtain ⟨hstall, hlong, hfit⟩ := sequencerEvent_catalogPreload hs he hq ((State.preloadsLeft_eq hr).trans hl) hid
      hr' hsrc hp
    split
    · exact hstall ‹_›
    · split
      · exact hlong ‹_› ‹_›
      · obtain ⟨hnone, hsome⟩ := hfit ‹_› ‹_›
        split
        · exact hnone ‹_›
        · rename_i bs st evs ha
          have hn : r'.state ≠ .resident := by rcases hp with ⟨h, -⟩ | ⟨h, -⟩ <;> rw [h] <;> nofun
          have hsram : st.sram = s.store.sram := Store.allocate_sram ha
          refine ⟨_, hsome bs st evs ha, rfl, ?_, fun j hj => ?_, rfl, rfl, hsram, rfl, rfl,
            catalogFilling_frame _ _ _ _ _ _ _⟩
          · refine (s.enterFilling_seg i i _ bs st evs).trans ?_
            rw [if_pos rfl, Store.allocate_seg ha hr' hn, hr']; rfl
          · exact (s.enterFilling_seg i j _ bs st evs).trans (if_neg hj)
  · rcases preloadEnded_spec failed taken s with ⟨-, e⟩ | ⟨hne, -⟩
    · exact e
    · exact absurd hs hne

end Sys2Proof.Machine
end

section
/-! PROOFS. The segment store's reasoning rules: the state of a record, the blocks of a segment and of all segments,
and what one allocation does (R24, R25, R36 to R38). -/

namespace Sys2Proof.Machine

/-! ### The state of a segment -/

/-- A segment is declared and in a state. -/
def Store.InState (st : Store) (i : SegId) (g : SegState) : Prop := ∃ r, st.seg i = some r ∧ r.state = g

theorem Store.InState.eq {st : Store} {i : SegId} {g g' : SegState} (h : st.InState i g) (h' : st.InState i g') :
    g = g' := by
  obtain ⟨r, hr, rfl⟩ := h
  obtain ⟨r', hr', rfl⟩ := h'
  cases hr.symm.trans hr'
  rfl

theorem Store.InState.congr {st st' : Store} {i : SegId} (h : st'.seg i = st.seg i) (g : SegState) :
    st'.InState i g ↔ st.InState i g := by unfold Store.InState; rw [h]

/-! ### The blocks of one segment -/

theorem Store.blocksOf_declared {st : Store} {i : SegId} {r : SegRecord} (hr : st.seg i = some r) :
    st.blocksOf i = r.blocks := by
  unfold Store.blocksOf; rw [hr]

theorem Store.blocksOf_congr {st st' : Store} {i : SegId} (h : st'.seg i = st.seg i) :
    st'.blocksOf i = st.blocksOf i := by
  unfold Store.blocksOf; rw [h]

/-- A record changed within its block list leaves the segment its blocks. -/
theorem Store.blocksOf_update (st : Store) (i : SegId) {f : SegRecord → SegRecord}
    (hf : ∀ r, (f r).blocks = r.blocks) : (st.update i f).blocksOf i = st.blocksOf i := by
  cases h : st.seg i <;> simp [Store.blocksOf, h, hf]

theorem Store.blocksOf_freeBlocks (st : Store) (i : SegId) : (st.freeBlocks i).blocksOf i = [] := by
  cases h : st.seg i <;> simp [Store.blocksOf, Store.seg_freeBlocks, h]

/-! ### The blocks of all segments -/

theorem Store.count_allBlocks (st : Store) (b : Block) :
    st.allBlocks.count b = ∑ i, (st.blocksOf i).count b := by
  unfold Store.allBlocks
  rw [List.count_flatMap, Fin.sum_univ_def]
  rfl

/-- Two stores that differ in one segment's blocks differ by them. -/
theorem Store.count_allBlocks_exchange {st st' : Store} {i : SegId}
    (h : ∀ j, j ≠ i → st'.blocksOf j = st.blocksOf j) (b : Block) :
    st'.allBlocks.count b + (st.blocksOf i).count b = st.allBlocks.count b + (st'.blocksOf i).count b := by
  have split : ∀ u : Store, (u.blocksOf i).count b + ∑ j ∈ Finset.univ.erase i, (u.blocksOf j).count b =
      u.allBlocks.count b := fun u => by
    rw [u.count_allBlocks b]
    exact Finset.add_sum_erase Finset.univ (fun j => (u.blocksOf j).count b) (Finset.mem_univ i)
  have rest : ∑ j ∈ Finset.univ.erase i, (st'.blocksOf j).count b =
      ∑ j ∈ Finset.univ.erase i, (st.blocksOf j).count b :=
    Finset.sum_congr rfl fun j hj => by rw [h j (Finset.ne_of_mem_erase hj)]
  have h1 := split st
  have h2 := split st'
  omega

/-- Blocks are conserved where one segment's blocks and the free list together are (R25). -/
theorem Store.blocks_conserved {st st' : Store} {i : SegId} {out : List Block}
    (h : ∀ j, j ≠ i → st'.blocksOf j = st.blocksOf j)
    (hi : (out ++ st'.free ++ st'.blocksOf i).Perm (st.free ++ st.blocksOf i)) :
    (out ++ st'.free ++ st'.allBlocks).Perm (st.free ++ st.allBlocks) := by
  rw [List.perm_iff_count] at hi ⊢
  intro b
  have hb := hi b
  have hx := Store.count_allBlocks_exchange h b
  simp only [List.count_append] at hb ⊢
  omega

/-! ### Eviction (R38) -/

/-- What the evictions of some segments, one after another, come to. -/
structure Store.Evicted (st st' : Store) (is : List SegId) : Prop where
  free : st'.free = st.free ++ is.flatMap st.blocksOf
  residence : st'.residence = st.residence.filter fun j => decide (j ∉ is)
  evicted : ∀ j ∈ is, st'.seg j = (st.seg j).map fun r => { r with state := .absent, blocks := [] }
  kept : ∀ j, j ∉ is → st'.seg j = st.seg j
  conserved : (st'.free ++ st'.allBlocks).Perm (st.free ++ st.allBlocks)

theorem Store.Evicted.nil (st : Store) : st.Evicted st [] where
  free := by simp
  residence := by simp
  evicted := nofun
  kept _ _ := rfl
  conserved := .refl _

theorem Store.evict_seg_other (st : Store) {i j : SegId} (h : j ≠ i) : (st.evict i).seg j = st.seg j :=
  (st.evict_seg i j).trans (if_neg h)

theorem Store.evict_seg_same (st : Store) (i : SegId) :
    (st.evict i).seg i = (st.seg i).map fun r => { r with state := .absent, blocks := [] } :=
  (st.evict_seg i i).trans (if_pos rfl)

theorem Store.evict_blocksOf_same (st : Store) (i : SegId) : (st.evict i).blocksOf i = [] := by
  cases h : st.seg i <;> simp [Store.blocksOf, Store.evict_seg_same, h]

theorem Store.evict_conserves (st : Store) (i : SegId) :
    ((st.evict i).free ++ (st.evict i).allBlocks).Perm (st.free ++ st.allBlocks) :=
  Store.blocks_conserved (out := []) (fun _ hj => Store.blocksOf_congr (st.evict_seg_other hj))
    (by rw [st.evict_blocksOf_same, st.evict_free, List.nil_append, List.append_nil])

theorem Store.evict_residence (st : Store) (i : SegId) : (st.evict i).residence = st.residence.erase i := rfl

/-- One more eviction before the others. -/
theorem Store.Evicted.cons {st st' : Store} {i : SegId} {is : List SegId} (h : (st.evict i).Evicted st' is)
    (hi : i ∉ is) (hn : st.residence.Nodup) : st.Evicted st' (i :: is) where
  free := by
    have hb : is.flatMap (st.evict i).blocksOf = is.flatMap st.blocksOf :=
      List.flatMap_congr fun j hj =>
        Store.blocksOf_congr (st.evict_seg_other fun hji => hi (hji ▸ hj))
    rw [h.free, hb, st.evict_free, List.flatMap_cons, List.append_assoc]
  residence := by
    rw [h.residence, st.evict_residence, hn.erase_eq_filter, List.filter_filter]
    refine List.filter_congr fun j _ => ?_
    by_cases hj : j = i <;> simp [hj]
  evicted j hj := by
    by_cases hji : j = i
    · rw [hji, h.kept i hi, st.evict_seg_same]
    · rw [h.evicted j ((List.mem_cons.mp hj).resolve_left hji), st.evict_seg_other hji]
  kept j hj := by
    rw [List.mem_cons, not_or] at hj
    obtain ⟨hji, hjis⟩ := hj
    exact (h.kept j hjis).trans (st.evict_seg_other hji)
  conserved := h.conserved.trans (st.evict_conserves i)

theorem Store.evict_residence_nodup {st : Store} (h : st.residence.Nodup) (i : SegId) :
    (st.evict i).residence.Nodup := h.erase i

/-- The collected segments are evicted from the first on, each while the free count is below `n`, until it is not or
none is left (R37 step 3, R38). -/
theorem Store.evictUntil_spec (n : Nat) (cause : SegId) (is : List SegId) (st : Store) (his : is.Nodup)
    (hn : st.residence.Nodup) : ∃ k,
      st.Evicted (Store.evictUntil n cause is st).1 (is.take k) ∧
      (Store.evictUntil n cause is st).2 =
        (is.take k).map (fun j => .evicted j (st.blocksOf j).length cause) ∧
      (∀ m, m < (is.take k).length →
        st.free.length + (((is.take k).take m).map fun j => (st.blocksOf j).length).sum < n) ∧
      (n ≤ (Store.evictUntil n cause is st).1.free.length ∨ is.take k = is) := by
  induction is generalizing st with
  | nil => exact ⟨0, .nil st, rfl, nofun, .inr rfl⟩
  | cons i is ih =>
    obtain ⟨hi, his⟩ := List.nodup_cons.mp his
    by_cases henough : n ≤ st.free.length
    · rw [Store.evictUntil_enough _ _ _ _ henough]
      exact ⟨0, .nil st, rfl, nofun, .inl henough⟩
    · obtain ⟨k, hev, hevs, hlow, hend⟩ := ih (st.evict i) his (Store.evict_residence_nodup hn i)
      have hik : i ∉ is.take k := fun h => hi (List.mem_of_mem_take h)
      have hblocks : ∀ j ∈ is.take k, (st.evict i).blocksOf j = st.blocksOf j := fun j hj =>
        Store.blocksOf_congr (st.evict_seg_other fun hji => hik (hji ▸ hj))
      have hstep : Store.evictUntil n cause (i :: is) st =
          ((Store.evictUntil n cause is (st.evict i)).1,
            .evicted i (st.blocksOf i).length cause :: (Store.evictUntil n cause is (st.evict i)).2) :=
        if_neg henough
      rw [hstep]
      refine ⟨k + 1, hev.cons hik hn, ?_, fun m hm => ?_, hend.imp_right fun h => by rw [List.take_succ_cons, h]⟩
      · rw [hevs, List.take_succ_cons, List.map_cons]
        exact congrArg _ (List.map_congr_left fun j hj => by rw [hblocks j hj])
      · cases m with
        | zero => simpa using Nat.lt_of_not_le henough
        | succ m =>
          have hlt := hlow m (by simpa using hm)
          rw [st.evict_free, List.length_append,
            List.map_congr_left fun j hj => congrArg List.length (hblocks j (List.mem_of_mem_take hj))] at hlt
          rw [List.take_succ_cons, List.take_succ_cons, List.map_cons, List.sum_cons]
          omega

theorem Store.Evicted.free_length {st st' : Store} {is : List SegId} (h : st.Evicted st' is) :
    st'.free.length = st.free.length + (is.map fun j => (st.blocksOf j).length).sum := by
  rw [h.free, List.length_append, List.length_flatMap]

theorem Store.candidates_nodup {st : Store} (h : st.residence.Nodup) : st.candidates.Nodup := h.filter _

/-- R37: RESIDENT, not pinned, not dirty. -/
theorem Store.evictable_iff (st : Store) (j : SegId) : st.evictable j = true ↔
    ∃ r, st.seg j = some r ∧ r.state = .resident ∧ r.pinned = false ∧ r.dirty = false := by
  unfold Store.evictable
  cases st.seg j with
  | none => simp
  | some r => simp [and_assoc]

/-- A granted allocation: enough candidates are evicted, and the blocks handed out are the head of the free list
(R37). -/
theorem Store.allocate_spec {st st' : Store} {n : Nat} {i : SegId} {bs : List Block} {evs : List Event}
    (hn : st.residence.Nodup) (h : st.allocate n i = some (bs, st', evs)) : ∃ k st1,
      st.Evicted st1 (st.candidates.take k) ∧
      evs = (st.candidates.take k).map (fun j => .evicted j (st.blocksOf j).length i) ∧
      (∀ m, m < (st.candidates.take k).length →
        st.free.length + (((st.candidates.take k).take m).map fun j => (st.blocksOf j).length).sum < n) ∧
      n ≤ st1.free.length ∧ bs = st1.free.take n ∧ st' = { st1 with free := st1.free.drop n } := by
  obtain ⟨hreach, st1, he, hbs, hst'⟩ := Store.allocate_some h
  obtain ⟨k, hev, hevs, hlow, hend⟩ := Store.evictUntil_spec n i st.candidates st (Store.candidates_nodup hn) hn
  rw [he] at hev hevs hend
  refine ⟨k, st1, hev, hevs, hlow, ?_, hbs, hst'⟩
  rcases hend with hend | hend
  · exact hend
  · rw [hev.free_length, hend]; exact hreach

/-- Settles O26, from the evictions of a granted allocation (`Store.allocate_spec`). -/
theorem allocationConserves : Obligations.AllocationConserves := by
  intro st n i hn
  refine ⟨st.allocate_none n i, rfl, st.evictable_iff, fun bs st' evs h => ?_⟩
  have hsram := Store.allocate_sram h
  obtain ⟨k, st1, hev, hevs, hlow, hlen, hbs, hst'⟩ := Store.allocate_spec hn h
  have hparts : bs ++ st'.free = st1.free := by rw [hbs, hst']; exact List.take_append_drop n st1.free
  have hall : st'.allBlocks = st1.allBlocks := by rw [hst']; rfl
  refine ⟨by rw [hbs, List.length_take, Nat.min_eq_left hlen], ?_, hsram, fun henough => ?_,
    _, k, rfl, hlow, hevs, hparts.trans hev.free, ?_, fun j hj => ?_, fun j hj => ?_⟩
  · rw [hparts, hall]; exact hev.conserved
  · obtain ⟨-, st2, he, hbs2, -⟩ := Store.allocate_some h
    cases (Store.evictUntil_enough n i st.candidates st henough).symm.trans he
    exact ⟨rfl, hbs2⟩
  · rw [hst']; exact hev.residence
  · rw [hst']; exact hev.evicted j hj
  · rw [hst']; exact hev.kept j hj

end Sys2Proof.Machine
end

section
/-! PROOFS. What an event does to the segment store, the fill queue and the engine: the elementary moves, each with
the check that the part makes first, and that each keeps the two laws (R23, R25, R36, R75, R78). -/

namespace Sys2Proof.Machine

/-! ### What the laws of the store see -/

/-- The store, the fill queue and the engine: all that the laws of the store read. -/
structure StoreView where
  store : Store
  queue : List SegId
  engine : Engine

def State.view (s : State) : StoreView := ⟨s.store, s.fill.queue, s.fill.engine⟩

/-- The segment being loaded (R78). -/
def Engine.loads : Engine → Option SegId
  | .idle | .awaitHost _ _ => none
  | .loadingHost i _ _ _ _ | .loadingCatalog i _ _ _ => some i

/-- Segment `i` may begin a fill, and the queue is `q` once it does: it is awaited (R86), the head taken by an IDLE
engine (R79), or the segment of a direct fill (R85, R86). -/
inductive StoreView.Begins (v : StoreView) (i : SegId) : List SegId → Prop
  | awaited {d : Nat} (h : v.engine = .awaitHost i d) : Begins v i v.queue
  | head {rest : List SegId} (h : v.engine = .idle) (hq : v.queue = i :: rest) : Begins v i rest
  | direct (h : v.engine = .idle) (hs : v.store.InState i .absent ∨ v.store.InState i .failed) : Begins v i v.queue

/-- Segment `i`'s fill may end, and the queue is `q` once it does: it is being loaded, or fails where it would
begin. -/
inductive StoreView.Ends (v : StoreView) (i : SegId) : List SegId → Prop
  | loads (h : v.engine.loads = some i) : Ends v i v.queue
  | begins {q : List SegId} (h : v.Begins i q) : Ends v i q

/-- A record with the state, the blocks and the length of another. -/
def SegRecord.SameShape (r' r : SegRecord) : Prop :=
  r'.state = r.state ∧ r'.blocks = r.blocks ∧ r'.length = r.length

/-- A declared segment leaves the table: its blocks freed where it is RESIDENT, its id no longer queued where it is
QUEUED (R45). -/
def StoreView.release (v : StoreView) (i : SegId) (r : SegRecord) : StoreView :=
  ⟨(if r.state = .resident then v.store.vacate i else v.store).setSeg i none,
    if r.state = .queued then v.queue.erase i else v.queue, v.engine⟩

/-- The record of a segment that enters FILLING with the blocks granted (R27, R31). -/
def SegRecord.filling (r : SegRecord) (bs : List Block) (origin : Origin) : SegRecord :=
  { r with state := .filling, blocks := bs, origin := some origin }

/-- An elementary change of the store, the fill queue and the engine, under the check that the part makes. -/
inductive StoreMove : StoreView → StoreView → Prop
  /-- Bytes are stored (R33, R83, R88). -/
  | bytes (v : StoreView) (blocks : List Block) (data : List Byte) (o : Nat) :
      StoreMove v { v with store := { v.store with sram := overlayStore blocks data o v.store.sram } }
  /-- A count or a flag of a record changes. -/
  | record (v : StoreView) (i : SegId) {f : SegRecord → SegRecord} (hf : ∀ r, (f r).SameShape r) :
      StoreMove v { v with store := v.store.update i f }
  /-- A RESIDENT segment is touched (R36). -/
  | touch (v : StoreView) {i : SegId} (h : v.store.InState i .resident) :
      StoreMove v { v with store := v.store.touch i }
  /-- A segment is declared (R42, R43). -/
  | declare (v : StoreView) {i : SegId} (hi : v.store.seg i = none) {r : SegRecord} (hs : r.state = .absent)
      (hb : r.blocks = []) : StoreMove v { v with store := v.store.setSeg i (some r) }
  /-- A RESIDENT segment is dropped (R46). -/
  | drop (v : StoreView) {i : SegId} (h : v.store.InState i .resident) :
      StoreMove v { v with store :=
        (v.store.vacate i).update i fun r => { r with state := .absent, dirty := false } }
  /-- A FAILED segment becomes ABSENT (R46). -/
  | clear (v : StoreView) {i : SegId} (h : v.store.InState i .failed) :
      StoreMove v { v with store := v.store.update i fun r => { r with state := .absent } }
  /-- A segment that is neither REQUESTED nor FILLING is released (R44, R45). -/
  | release (v : StoreView) {i : SegId} {r : SegRecord} (hr : v.store.seg i = some r)
      (h1 : r.state ≠ .requested) (h2 : r.state ≠ .filling) : StoreMove v (v.release i r)
  /-- An ABSENT or FAILED segment is queued where the queue has room (R76, R94). -/
  | enqueue (v : StoreView) {i : SegId} (h : v.store.InState i .absent ∨ v.store.InState i .failed)
      (room : v.queue.length < 8) :
      StoreMove v ⟨v.store.update i fun r => { r with state := .queued }, v.queue ++ [i], v.engine⟩
  /-- The head is taken and is not declared (log 23). -/
  | skip (v : StoreView) {i : SegId} {rest : List SegId} (h : v.engine = .idle) (hq : v.queue = i :: rest)
      (hi : v.store.seg i = none) : StoreMove v { v with queue := rest }
  /-- The head is taken and awaits the host (R79). -/
  | await (v : StoreView) {i : SegId} {rest : List SegId} (h : v.engine = .idle) (hq : v.queue = i :: rest)
      {r : SegRecord} (hr : v.store.seg i = some r) (d : Nat) :
      StoreMove v ⟨v.store.update i fun r => { r with state := .requested, origin := some .queue }, rest,
        .awaitHost i d⟩
  /-- An allocation is granted and the segment is FILLING (R31, R37). -/
  | begin (v : StoreView) {i : SegId} {q : List SegId} (h : v.Begins i q) {bs : List Block} {st : Store}
      {evs : List Event} (ha : v.store.allocate (blocksFor (v.store.lengthOf i)) i = some (bs, st, evs))
      (origin : Origin) {e : Engine} (he : e.loads = some i) :
      StoreMove v ⟨st.update i (·.filling bs origin), q, e⟩
  /-- Loading goes on (R83, R88). -/
  | progress (v : StoreView) {i : SegId} (h : v.engine.loads = some i) {e : Engine} (he : e.loads = some i) :
      StoreMove v { v with engine := e }
  /-- A fill is complete (R32, R95). -/
  | complete (v : StoreView) {i : SegId} (h : v.engine.loads = some i) :
      StoreMove v ⟨v.store.verify i, v.queue, .idle⟩
  /-- A fill fails or is undone: its blocks are freed and it is FAILED or ABSENT again (R34, R35, R96, R98). -/
  | settle (v : StoreView) {i : SegId} {q : List SegId} (h : v.Ends i q) {f : SegRecord → SegRecord}
      (hs : ∀ r, (f r).state = .absent ∨ (f r).state = .failed) (hb : ∀ r, (f r).blocks = r.blocks) :
      StoreMove v ⟨(v.store.freeBlocks i).update i f, q, .idle⟩
  /-- Reset (R50, R101). -/
  | reset (v : StoreView) : StoreMove v ⟨Store.reset v.store.sram, [], .idle⟩

/-- An event changes the store, the fill queue and the engine by elementary moves alone. -/
def Moves (s t : State) : Prop := Relation.ReflTransGen StoreMove s.view t.view

/-! ### Overlay memory in canonical form (R23) -/

theorem StoreMove.sram_wf {v w : StoreView} (h : StoreMove v w) (hv : Memory.wf v.store.sram) :
    Memory.wf w.store.sram := by
  cases h with
  | bytes blocks data o => exact overlayStore_wf _ _ _ hv
  | complete h => exact overlayStore_wf _ _ _ hv
  | begin h ha origin he => rw [Store.update_sram, Store.allocate_sram ha]; exact hv
  | release hr h1 h2 =>
    unfold StoreView.release
    dsimp only
    split <;> exact hv
  | reset => dsimp only; rw [Store.reset_sram]; exact hv
  | _ => exact hv

/-- What every elementary move keeps, every event keeps that is made of them. -/
theorem Moves.keeps {P : StoreView → Prop} (hp : ∀ v w, StoreMove v w → P v → P w) {s t : State} (h : Moves s t)
    (hs : P s.view) : P t.view := by
  unfold Moves at h
  generalize t.view = w at h ⊢
  induction h with
  | refl => exact hs
  | tail _ hm ih => exact hp _ _ hm ih

theorem Moves.memoryLaw {s t : State} (h : Moves s t) : MemoryLaw s → MemoryLaw t :=
  h.keeps (P := fun v => Memory.wf v.store.sram) fun _ _ => StoreMove.sram_wf

/-! ### The law of the store -/

/-- The residence list holds exactly the RESIDENT segments, each once (R36). -/
def Store.ResidenceFits (st : Store) : Prop :=
  st.residence.Nodup ∧ ∀ i, i ∈ st.residence ↔ st.InState i .resident

/-- A queue holds QUEUED segments, each once (R75). -/
def Store.QueueFits (st : Store) (q : List SegId) : Prop := q.Nodup ∧ ∀ i ∈ q, st.InState i .queued

/-- The law of the store of a view. -/
structure StoreView.Law (v : StoreView) : Prop where
  blocks : (v.store.free ++ v.store.allBlocks).Perm (List.finRange 512)
  fit : ∀ i r, v.store.seg i = some r → r.BlocksFit
  resident : v.store.ResidenceFits
  queued : v.store.QueueFits v.queue
  current : v.engine.Fits v.store

theorem storeLaw_iff (s : State) : StoreLaw s ↔ s.view.Law :=
  ⟨fun ⟨hb, hf, hr, hq, hc⟩ => ⟨hb, hf, hr, hq, hc⟩, fun ⟨hb, hf, hr, hq, hc⟩ => ⟨hb, hf, hr, hq, hc⟩⟩

/-! ### Residence (R36) -/

theorem Store.ResidenceFits.keep {st st' : Store} (h : st.ResidenceFits) (hr : st'.residence = st.residence)
    (hs : ∀ j, st'.InState j .resident ↔ st.InState j .resident) : st'.ResidenceFits :=
  ⟨hr ▸ h.1, fun j => by rw [hr, hs]; exact h.2 j⟩

/-- A segment leaves the list as it leaves RESIDENT. -/
theorem Store.ResidenceFits.erase {st st' : Store} {i : SegId} (h : st.ResidenceFits)
    (hr : st'.residence = st.residence.erase i) (hi : ¬ st'.InState i .resident)
    (hs : ∀ j, j ≠ i → st'.seg j = st.seg j) : st'.ResidenceFits := by
  obtain ⟨hn, hmem⟩ := h
  refine ⟨hr ▸ hn.erase i, fun j => ?_⟩
  rw [hr, hn.mem_erase_iff]
  by_cases hj : j = i
  · subst hj; simp [hi]
  · rw [Store.InState.congr (hs j hj), ← hmem]; simp [hj]

/-- A segment moves to the list's end as it is, or becomes, RESIDENT. -/
theorem Store.ResidenceFits.touch {st st' : Store} {i : SegId} (h : st.ResidenceFits)
    (hr : st'.residence = st.residence.erase i ++ [i]) (hi : st'.InState i .resident)
    (hs : ∀ j, j ≠ i → st'.seg j = st.seg j) : st'.ResidenceFits := by
  obtain ⟨hn, hmem⟩ := h
  refine ⟨?_, fun j => ?_⟩
  · rw [hr]
    exact (List.perm_append_singleton _ _).nodup_iff.mpr
      (List.nodup_cons.mpr ⟨fun hi => (hn.mem_erase_iff.mp hi).1 rfl, hn.erase i⟩)
  · rw [hr, List.mem_append, List.mem_singleton, hn.mem_erase_iff]
    by_cases hj : j = i
    · subst hj; simp [hi]
    · rw [Store.InState.congr (hs j hj), ← hmem]; simp [hj]

/-! ### The queue and the engine (R75, R78) -/

theorem Store.QueueFits.keep {st st' : Store} {q : List SegId} (h : st.QueueFits q)
    (hs : ∀ j ∈ q, st.InState j .queued → st'.InState j .queued) : st'.QueueFits q :=
  ⟨h.1, fun j hj => hs j hj (h.2 j hj)⟩

/-- The engine fits a store in which its current segment keeps its state. -/
theorem Engine.Fits.keep {e : Engine} {st st' : Store} (h : e.Fits st)
    (hs : ∀ j g, g = .requested ∨ g = .filling → st.InState j g → st'.InState j g) : e.Fits st' := by
  cases e with
  | idle => trivial
  | awaitHost i d => exact hs i _ (.inl rfl) h
  | loadingHost i o n c d => exact hs i _ (.inr rfl) h
  | loadingCatalog i o n c => exact hs i _ (.inr rfl) h

theorem Engine.fits_of_loads {e : Engine} {i : SegId} (h : e.loads = some i) (st : Store) :
    e.Fits st ↔ st.InState i .filling := by
  cases e with
  | idle => cases h
  | awaitHost => cases h
  | loadingHost => cases h; rfl
  | loadingCatalog => cases h; rfl

end Sys2Proof.Machine
end

section
/-! PROOFS. Every elementary move keeps the law of the segment store: what a change of one segment asks for, then one
lemma per move (R25, R36, R75, R78). -/

namespace Sys2Proof.Machine

/-! ### A change of one segment -/

/-- Two stores have the same records but for one segment's. -/
def Store.SameOff (i : SegId) (st st' : Store) : Prop := ∀ j, j ≠ i → st'.seg j = st.seg j

theorem Store.setSeg_sameOff (st : Store) (i : SegId) (r : Option SegRecord) : st.SameOff i (st.setSeg i r) :=
  fun j hj => (st.seg_setSeg i j r).trans (if_neg hj)

theorem Store.update_sameOff (st : Store) (i : SegId) (f : SegRecord → SegRecord) : st.SameOff i (st.update i f) :=
  st.setSeg_sameOff i _

theorem Store.SameOff.trans {i : SegId} {st st' st'' : Store} (h : st.SameOff i st') (h' : st'.SameOff i st'') :
    st.SameOff i st'' := fun j hj => (h' j hj).trans (h j hj)

theorem Store.freeBlocks_sameOff (st : Store) (i : SegId) : st.SameOff i (st.freeBlocks i) :=
  fun j hj => (st.seg_freeBlocks i j).trans (if_neg hj)

theorem Store.QueueFits.off {st st' : Store} {i : SegId} {q : List SegId} (h : st.QueueFits q) (hi : i ∉ q)
    (hs : st.SameOff i st') : st'.QueueFits q :=
  h.keep fun j hj => (Store.InState.congr (hs j fun e => hi (e ▸ hj)) _).mpr

theorem Engine.Fits.off {e : Engine} {st st' : Store} {i : SegId} (h : e.Fits st) (hs : st.SameOff i st')
    (h1 : ¬ st.InState i .requested) (h2 : ¬ st.InState i .filling) : e.Fits st' := by
  refine h.keep fun j g hg hj => (Store.InState.congr (hs j ?_) _).mpr hj
  rintro rfl
  rcases hg with rfl | rfl
  · exact h1 hj
  · exact h2 hj

theorem Store.ResidenceFits.off {st st' : Store} {i : SegId} (h : st.ResidenceFits)
    (hr : st'.residence = st.residence) (hs : st.SameOff i st') (hi : ¬ st.InState i .resident)
    (hi' : ¬ st'.InState i .resident) : st'.ResidenceFits := by
  refine h.keep hr fun j => ?_
  by_cases hj : j = i
  · subst hj; exact iff_of_false hi' hi
  · exact Store.InState.congr (hs j hj) _

theorem SegRecord.blocksFit_loaded {r : SegRecord} (h : r.state = .filling ∨ r.state = .resident) :
    r.BlocksFit ↔ r.blocks.length = blocksFor r.length := by
  unfold SegRecord.BlocksFit; rw [if_pos h]

theorem SegRecord.blocksFit_unloaded {r : SegRecord} (h1 : r.state ≠ .filling) (h2 : r.state ≠ .resident) :
    r.BlocksFit ↔ r.blocks = [] := by
  unfold SegRecord.BlocksFit; rw [if_neg (not_or.mpr ⟨h1, h2⟩)]

/-- The law after a change of one segment. -/
theorem StoreView.Law.change {v : StoreView} (h : v.Law) {i : SegId} {st : Store} (hs : v.store.SameOff i st)
    (hblocks : (st.free ++ st.blocksOf i).Perm (v.store.free ++ v.store.blocksOf i))
    (hfit : ∀ r, st.seg i = some r → r.BlocksFit) (hres : st.ResidenceFits) {q : List SegId}
    (hq : st.QueueFits q) {e : Engine} (he : e.Fits st) : StoreView.Law ⟨st, q, e⟩ where
  blocks := (Store.blocks_conserved (out := []) (fun j hj => Store.blocksOf_congr (hs j hj)) hblocks).trans h.blocks
  fit j r hr := by
    by_cases hj : j = i
    · subst hj; exact hfit r hr
    · exact h.fit j r ((hs j hj).symm.trans hr)
  resident := hres
  queued := hq
  current := he

/-- Outside FILLING and RESIDENT a segment has no blocks (R25). -/
theorem StoreView.Law.blocksOf_eq_nil {v : StoreView} (h : v.Law) {i : SegId} {g : SegState}
    (hi : v.store.InState i g) (h1 : g ≠ .filling) (h2 : g ≠ .resident) : v.store.blocksOf i = [] := by
  obtain ⟨r, hr, rfl⟩ := hi
  rw [Store.blocksOf_declared hr]
  exact (SegRecord.blocksFit_unloaded h1 h2).mp (h.fit i r hr)

theorem StoreView.Law.not_queued {v : StoreView} (h : v.Law) {i : SegId} {g : SegState}
    (hi : v.store.InState i g) (hg : g ≠ .queued) : i ∉ v.queue :=
  fun hq => hg (hi.eq (h.queued.2 i hq))

theorem Store.not_inState {st : Store} {i : SegId} {g g' : SegState} (h : st.InState i g) (hg : g ≠ g') :
    ¬ st.InState i g' := fun h' => hg (h.eq h')

/-- A record written into a store is in its state. -/
theorem Store.InState.update {st : Store} {i : SegId} {g g' : SegState} (h : st.InState i g)
    {f : SegRecord → SegRecord} (hf : ∀ r, (f r).state = g') : (st.update i f).InState i g' := by
  obtain ⟨r, hr, -⟩ := h
  exact ⟨f r, by simp [hr], hf r⟩

theorem Store.InState.freeBlocks {st : Store} {i : SegId} {g : SegState} (h : st.InState i g) :
    (st.freeBlocks i).InState i g := by
  obtain ⟨r, hr, hg⟩ := h
  exact ⟨{ r with blocks := [] }, by simp [Store.seg_freeBlocks, hr], hg⟩

/-! ### Each move keeps the law -/

theorem StoreView.Law.bytes {v : StoreView} (h : v.Law) (sram : List Host.Cell) :
    StoreView.Law { v with store := { v.store with sram := sram } } := by
  obtain ⟨hb, hf, hr, hq, hc⟩ := h
  exact ⟨hb, hf, hr, hq, hc⟩

/-- A change that keeps every record's state, blocks and length keeps the state of every segment. -/
theorem Store.inState_record (st : Store) (i : SegId) {f : SegRecord → SegRecord} (hf : ∀ r, (f r).SameShape r)
    (j : SegId) (g : SegState) : (st.update i f).InState j g ↔ st.InState j g := by
  by_cases hj : j = i
  · subst hj
    cases hr : st.seg j with
    | none => simp [Store.InState, hr]
    | some r => simp [Store.InState, hr, (hf r).1]
  · exact Store.InState.congr (st.update_sameOff i f j hj) g

theorem StoreView.Law.record {v : StoreView} (h : v.Law) (i : SegId) {f : SegRecord → SegRecord}
    (hf : ∀ r, (f r).SameShape r) : StoreView.Law { v with store := v.store.update i f } := by
  have hst := v.store.inState_record i hf
  refine h.change (v.store.update_sameOff i f) ?_ (fun r hr => ?_) (h.resident.keep rfl fun j => hst j _)
    (h.queued.keep fun j _ => (hst j _).mpr) (h.current.keep fun j g _ => (hst j g).mpr)
  · rw [Store.blocksOf_update _ _ fun r => (hf r).2.1]; exact .refl _
  · rw [Store.seg_update_same, Option.map_eq_some_iff] at hr
    obtain ⟨r0, hr0, rfl⟩ := hr
    obtain ⟨hs, hb, hl⟩ := hf r0
    have h0 := h.fit i r0 hr0
    unfold SegRecord.BlocksFit at h0 ⊢
    rwa [hs, hb, hl]

theorem StoreView.Law.touch {v : StoreView} (h : v.Law) {i : SegId} (hi : v.store.InState i .resident) :
    StoreView.Law { v with store := v.store.touch i } where
  blocks := h.blocks
  fit := h.fit
  resident := h.resident.touch rfl hi fun _ _ => rfl
  queued := h.queued
  current := h.current

theorem StoreView.Law.declare {v : StoreView} (h : v.Law) {i : SegId} (hi : v.store.seg i = none) {r : SegRecord}
    (hs : r.state = .absent) (hb : r.blocks = []) :
    StoreView.Law { v with store := v.store.setSeg i (some r) } := by
  have hno : ∀ g, ¬ v.store.InState i g := fun g ⟨r', hr', _⟩ => nomatch hi.symm.trans hr'
  have hin : (v.store.setSeg i (some r)).InState i .absent := ⟨r, v.store.seg_setSeg_same i _, hs⟩
  have hoff := v.store.setSeg_sameOff i (some r)
  refine h.change hoff ?_ (fun r' hr' => ?_) (h.resident.off rfl hoff (hno _) (Store.not_inState hin nofun))
    (h.queued.off (fun hq => hno _ (h.queued.2 i hq)) hoff) (h.current.off hoff (hno _) (hno _))
  · rw [Store.blocksOf_declared (v.store.seg_setSeg_same i _), hb, Store.blocksOf_undeclared hi]; exact .refl _
  · cases (v.store.seg_setSeg_same i (some r)).symm.trans hr'
    exact (SegRecord.blocksFit_unloaded (by simp [hs]) (by simp [hs])).mpr hb

/-- A segment is left without blocks: the free list has those it held, and it is neither FILLING nor RESIDENT. -/
theorem StoreView.Law.unload {v : StoreView} (h : v.Law) {i : SegId} {st : Store} (hs : v.store.SameOff i st)
    (hfree : st.free = v.store.free ++ v.store.blocksOf i)
    (hseg : ∀ r, st.seg i = some r → r.blocks = [] ∧ r.state ≠ .filling ∧ r.state ≠ .resident)
    (hres : st.ResidenceFits) {q : List SegId} (hq : st.QueueFits q) {e : Engine} (he : e.Fits st) :
    StoreView.Law ⟨st, q, e⟩ := by
  refine h.change hs ?_ (fun r hr => ?_) hres hq he
  · have hb : st.blocksOf i = [] := by
      cases hr : st.seg i with
      | none => exact Store.blocksOf_undeclared hr
      | some r => rw [Store.blocksOf_declared hr]; exact (hseg r hr).1
    rw [hfree, hb, List.append_nil]
  · obtain ⟨hb, h1, h2⟩ := hseg r hr
    exact (SegRecord.blocksFit_unloaded h1 h2).mpr hb

/-- A segment without blocks goes from one state without blocks to another. -/
theorem StoreView.Law.restate {v : StoreView} (h : v.Law) {i : SegId} {g g' : SegState} (hi : v.store.InState i g)
    (h1 : g ≠ .filling) (h2 : g ≠ .resident) (h1' : g' ≠ .filling) (h2' : g' ≠ .resident)
    {f : SegRecord → SegRecord} (hf : ∀ r, (f r).state = g') (hb : ∀ r, (f r).blocks = r.blocks)
    {q : List SegId} (hq : (v.store.update i f).QueueFits q) {e : Engine} (he : e.Fits (v.store.update i f)) :
    StoreView.Law ⟨v.store.update i f, q, e⟩ := by
  have hnil := h.blocksOf_eq_nil hi h1 h2
  refine h.unload (v.store.update_sameOff i f) (by rw [hnil, List.append_nil]; rfl) (fun r hr => ?_)
    (h.resident.off rfl (v.store.update_sameOff i f) (Store.not_inState hi h2)
      (Store.not_inState (hi.update hf) h2')) hq he
  have hr' := hr
  rw [Store.seg_update_same, Option.map_eq_some_iff] at hr
  obtain ⟨r0, hr0, rfl⟩ := hr
  rw [hf, hb, ← Store.blocksOf_declared hr0]
  exact ⟨hnil, h1', h2'⟩

theorem StoreView.Law.clear {v : StoreView} (h : v.Law) {i : SegId} (hi : v.store.InState i .failed) :
    StoreView.Law { v with store := v.store.update i fun r => { r with state := .absent } } := by
  have hoff := v.store.update_sameOff i fun r => { r with state := .absent }
  refine h.restate hi nofun nofun (f := fun r => { r with state := .absent }) (g' := .absent) nofun nofun
    (fun _ => rfl) (fun _ => rfl) ?_ ?_
  · exact h.queued.off (h.not_queued hi nofun) hoff
  · exact h.current.off hoff (Store.not_inState hi nofun) (Store.not_inState hi nofun)

theorem StoreView.Law.enqueue {v : StoreView} (h : v.Law) {i : SegId}
    (hi : v.store.InState i .absent ∨ v.store.InState i .failed) :
    StoreView.Law ⟨v.store.update i fun r => { r with state := .queued }, v.queue ++ [i], v.engine⟩ := by
  obtain ⟨g, hg, hin⟩ : ∃ g, (g = .absent ∨ g = .failed) ∧ v.store.InState i g :=
    hi.elim (⟨_, .inl rfl, ·⟩) (⟨_, .inr rfl, ·⟩)
  have ne : ∀ g', g' ≠ .absent → g' ≠ .failed → g ≠ g' := by rintro g' h1 h2 rfl; exact hg.elim h1 h2
  have hoff := v.store.update_sameOff i fun r => { r with state := .queued }
  have hni := h.not_queued hin (ne _ nofun nofun)
  have hold := h.queued.off hni hoff
  refine h.restate hin (ne _ nofun nofun) (ne _ nofun nofun) (f := fun r => { r with state := .queued })
    (g' := .queued) nofun nofun (fun _ => rfl) (fun _ => rfl) ⟨?_, fun j hj => ?_⟩ ?_
  · exact (List.perm_append_singleton _ _).nodup_iff.mpr (List.nodup_cons.mpr ⟨hni, hold.1⟩)
  · rcases List.mem_append.mp hj with hj | hj
    · exact hold.2 j hj
    · rw [List.mem_singleton.mp hj]; exact hin.update fun _ => rfl
  · exact h.current.off hoff (Store.not_inState hin (ne _ nofun nofun)) (Store.not_inState hin (ne _ nofun nofun))

/-- The head of the queue is QUEUED and in it once (R75). -/
theorem StoreView.Law.head {v : StoreView} (h : v.Law) {i : SegId} {rest : List SegId} (hq : v.queue = i :: rest) :
    v.store.InState i .queued ∧ i ∉ rest ∧ v.store.QueueFits rest := by
  obtain ⟨hn, hmem⟩ := h.queued
  rw [hq] at hn hmem
  obtain ⟨hi, hn⟩ := List.nodup_cons.mp hn
  exact ⟨hmem i (List.mem_cons_self ..), hi, hn, fun j hj => hmem j (List.mem_cons_of_mem i hj)⟩

theorem StoreView.Law.await {v : StoreView} (h : v.Law) {i : SegId} {rest : List SegId} (hq : v.queue = i :: rest)
    (d : Nat) : StoreView.Law
      ⟨v.store.update i fun r => { r with state := .requested, origin := some .queue }, rest, .awaitHost i d⟩ := by
  obtain ⟨hi, hni, hrest⟩ := h.head hq
  exact h.restate hi nofun nofun (f := fun r => { r with state := .requested, origin := some .queue })
    (g' := .requested) nofun nofun (fun _ => rfl) (fun _ => rfl) (hrest.off hni (v.store.update_sameOff i _))
    (hi.update fun _ => rfl)

theorem StoreView.Law.drop {v : StoreView} (h : v.Law) {i : SegId} (hi : v.store.InState i .resident) :
    StoreView.Law { v with store :=
      (v.store.vacate i).update i fun r => { r with state := .absent, dirty := false } } := by
  have hoff : v.store.SameOff i ((v.store.vacate i).update i fun r => { r with state := .absent, dirty := false }) :=
    (v.store.freeBlocks_sameOff i).trans (Store.update_sameOff _ i _)
  have hv : (v.store.vacate i).InState i .resident := hi.freeBlocks
  refine h.unload hoff rfl (fun r hr => ?_)
    (h.resident.erase rfl (Store.not_inState (hv.update fun _ => rfl) (g := .absent) nofun) hoff)
    (h.queued.off (h.not_queued hi nofun) hoff)
    (h.current.off hoff (Store.not_inState hi nofun) (Store.not_inState hi nofun))
  rw [Store.seg_update_same, Option.map_eq_some_iff] at hr
  obtain ⟨r0, hr0, rfl⟩ := hr
  rw [← Store.blocksOf_declared hr0]
  exact ⟨v.store.blocksOf_freeBlocks i, nofun, nofun⟩

/-- A segment whose record is discarded, its blocks freed before (R45). -/
theorem StoreView.Law.release {v : StoreView} (h : v.Law) {i : SegId} {r : SegRecord} (hr : v.store.seg i = some r)
    (h1 : r.state ≠ .requested) (h2 : r.state ≠ .filling) : (v.release i r).Law := by
  have hin : v.store.InState i r.state := ⟨r, hr, rfl⟩
  have hq : v.store.QueueFits (if r.state = .queued then v.queue.erase i else v.queue) ∧
      i ∉ (if r.state = .queued then v.queue.erase i else v.queue) := by
    split
    · exact ⟨⟨h.queued.1.erase i, fun j hj => h.queued.2 j (List.mem_of_mem_erase hj)⟩,
        fun hm => (h.queued.1.mem_erase_iff.mp hm).1 rfl⟩
    · exact ⟨h.queued, h.not_queued hin ‹_›⟩
  have key : ∀ st : Store, v.store.SameOff i st → st.free = v.store.free ++ v.store.blocksOf i →
      (st.setSeg i none).ResidenceFits → StoreView.Law ⟨st.setSeg i none,
        if r.state = .queued then v.queue.erase i else v.queue, v.engine⟩ := fun st hst hfree hres => by
    have hoff := hst.trans (st.setSeg_sameOff i none)
    exact h.unload hoff hfree (fun r' hr' => nomatch (st.seg_setSeg_same i none).symm.trans hr') hres
      (hq.1.off hq.2 hoff) (h.current.off hoff (Store.not_inState hin h1) (Store.not_inState hin h2))
  have hgone : ∀ st : Store, ¬ (st.setSeg i none).InState i .resident := fun st ⟨r', hr', _⟩ =>
    nomatch (st.seg_setSeg_same i none).symm.trans hr'
  unfold StoreView.release
  by_cases hres : r.state = .resident
  · rw [if_pos hres]
    have hoff : v.store.SameOff i (v.store.vacate i) := v.store.freeBlocks_sameOff i
    exact key _ hoff rfl (h.resident.erase rfl (hgone _) (hoff.trans (Store.setSeg_sameOff _ i none)))
  · rw [if_neg hres]
    have hnil := h.blocksOf_eq_nil hin h2 hres
    exact key _ (fun _ _ => rfl) (by rw [hnil, List.append_nil]) (h.resident.off rfl (v.store.setSeg_sameOff i none)
      (Store.not_inState hin hres) (hgone _))

/-! ### Fills -/

/-- The segment of a fill that may begin is not RESIDENT, has no blocks and is not in the queue it leaves. -/
theorem StoreView.Begins.facts {v : StoreView} {i : SegId} {q : List SegId} (h : v.Begins i q) (hv : v.Law) :
    v.store.QueueFits q ∧ i ∉ q ∧ ∃ g, v.store.InState i g ∧ g ≠ .filling ∧ g ≠ .resident := by
  cases h with
  | awaited h =>
    have hi : v.store.InState i .requested := by have := hv.current; rw [h] at this; exact this
    exact ⟨hv.queued, hv.not_queued hi nofun, _, hi, nofun, nofun⟩
  | head h hq =>
    obtain ⟨hi, hni, hrest⟩ := hv.head hq
    exact ⟨hrest, hni, _, hi, nofun, nofun⟩
  | direct h hs =>
    rcases hs with hi | hi <;> exact ⟨hv.queued, hv.not_queued hi nofun, _, hi, nofun, nofun⟩

theorem StoreView.Law.loads {v : StoreView} (h : v.Law) {i : SegId} (he : v.engine.loads = some i) :
    v.store.InState i .filling := (Engine.fits_of_loads he v.store).mp h.current

theorem StoreView.Ends.facts {v : StoreView} {i : SegId} {q : List SegId} (h : v.Ends i q) (hv : v.Law) :
    v.store.QueueFits q ∧ i ∉ q ∧ ∃ g, v.store.InState i g ∧ g ≠ .resident := by
  cases h with
  | loads h => exact ⟨hv.queued, hv.not_queued (hv.loads h) nofun, _, hv.loads h, nofun⟩
  | begins h =>
    obtain ⟨hq, hi, g, hg, -, hn⟩ := h.facts hv
    exact ⟨hq, hi, g, hg, hn⟩

theorem StoreView.Law.settle {v : StoreView} (h : v.Law) {i : SegId} {q : List SegId} (he : v.Ends i q)
    {f : SegRecord → SegRecord} (hs : ∀ r, (f r).state = .absent ∨ (f r).state = .failed)
    (hb : ∀ r, (f r).blocks = r.blocks) : StoreView.Law ⟨(v.store.freeBlocks i).update i f, q, .idle⟩ := by
  obtain ⟨hq, hi, g, hg, hn⟩ := he.facts h
  have hoff := (v.store.freeBlocks_sameOff i).trans ((v.store.freeBlocks i).update_sameOff i f)
  have hseg : ∀ r, ((v.store.freeBlocks i).update i f).seg i = some r →
      r.blocks = [] ∧ r.state ≠ .filling ∧ r.state ≠ .resident := fun r hr => by
    rw [Store.seg_update_same, Option.map_eq_some_iff] at hr
    obtain ⟨r0, hr0, rfl⟩ := hr
    rw [hb, ← Store.blocksOf_declared hr0]
    refine ⟨v.store.blocksOf_freeBlocks i, ?_, ?_⟩ <;> rcases hs r0 with e | e <;> rw [e] <;> nofun
  exact h.unload hoff rfl hseg
    (h.resident.off rfl hoff (Store.not_inState hg hn) fun ⟨r, hr, e⟩ => (hseg r hr).2.2 e) (hq.off hi hoff) trivial

/-- Of the evicted segments only the state and the blocks have changed; a segment in another state than RESIDENT is
none of them. -/
theorem Store.Evicted.seg_of_inState {st st' : Store} {is : List SegId} (h : st.Evicted st' is)
    (his : ∀ j ∈ is, st.InState j .resident) {i : SegId} {g : SegState} (hi : st.InState i g) (hg : g ≠ .resident) :
    st'.seg i = st.seg i := h.kept i fun hm => hg (hi.eq (his i hm))

/-- Evictions of RESIDENT segments keep the law (R38). -/
theorem StoreView.Law.evicted {v : StoreView} (h : v.Law) {st : Store} {is : List SegId}
    (hev : v.store.Evicted st is) (his : ∀ j ∈ is, v.store.InState j .resident) {q : List SegId}
    (hq : v.store.QueueFits q) : StoreView.Law ⟨st, q, .idle⟩ where
  blocks := hev.conserved.trans h.blocks
  fit j r hr := by
    by_cases hj : j ∈ is
    · have hr' := (hev.evicted j hj).symm.trans hr
      rw [Option.map_eq_some_iff] at hr'
      obtain ⟨r0, -, rfl⟩ := hr'
      exact (SegRecord.blocksFit_unloaded (by simp) (by simp)).mpr rfl
    · exact h.fit j r ((hev.kept j hj).symm.trans hr)
  resident := by
    obtain ⟨hn, hmem⟩ := h.resident
    refine ⟨hev.residence ▸ hn.filter _, fun j => ?_⟩
    rw [hev.residence, List.mem_filter, decide_eq_true_eq]
    by_cases hj : j ∈ is
    · refine iff_of_false (fun hx => hx.2 hj) fun ⟨r, hr, hs⟩ => ?_
      have hr' := (hev.evicted j hj).symm.trans hr
      rw [Option.map_eq_some_iff] at hr'
      obtain ⟨r0, -, rfl⟩ := hr'
      cases hs
    · rw [Store.InState.congr (hev.kept j hj), ← hmem]; simp [hj]
  queued := hq.keep fun j _ hj => (Store.InState.congr (hev.seg_of_inState his hj nofun) _).mpr hj
  current := trivial

theorem Store.candidates_resident {st : Store} {j : SegId} (h : j ∈ st.candidates) : st.InState j .resident := by
  obtain ⟨r, hr, hs, -⟩ := (st.evictable_iff j).mp (List.mem_filter.mp h).2
  exact ⟨r, hr, hs⟩

/-- What a granted allocation leaves before the blocks go to their segment: a store that meets the law, from whose
free list they are the head (R37). -/
theorem StoreView.Law.granted {v : StoreView} (h : v.Law) {i : SegId} {g : SegState} (hi : v.store.InState i g)
    (hg : g ≠ .resident) {q : List SegId} (hq : v.store.QueueFits q) {n : Nat} {bs : List Block} {st : Store}
    {evs : List Event} (ha : v.store.allocate n i = some (bs, st, evs)) :
    ∃ st1, StoreView.Law ⟨st1, q, .idle⟩ ∧ st1.seg i = v.store.seg i ∧ bs.length = n ∧
      bs ++ st.free = st1.free ∧ (∀ j, st.seg j = st1.seg j) ∧ st.residence = st1.residence := by
  obtain ⟨k, st1, hev, -, -, hlen, rfl, rfl⟩ := Store.allocate_spec h.resident.1 ha
  have his : ∀ j ∈ v.store.candidates.take k, v.store.InState j .resident := fun j hj =>
    Store.candidates_resident (List.mem_of_mem_take hj)
  exact ⟨st1, h.evicted hev his hq, hev.seg_of_inState his hi hg, by rw [List.length_take, Nat.min_eq_left hlen],
    List.take_append_drop n st1.free, fun _ => rfl, rfl⟩

theorem StoreView.Law.begin {v : StoreView} (h : v.Law) {i : SegId} {q : List SegId} (hbeg : v.Begins i q)
    {bs : List Block} {st : Store} {evs : List Event}
    (ha : v.store.allocate (blocksFor (v.store.lengthOf i)) i = some (bs, st, evs)) (origin : Origin) {e : Engine}
    (he : e.loads = some i) : StoreView.Law ⟨st.update i (·.filling bs origin), q, e⟩ := by
  obtain ⟨hq, hni, g, hg, h1, h2⟩ := hbeg.facts h
  obtain ⟨st1, hlaw, hseg, hlen, hfree, hsegs, hres⟩ := h.granted hg h2 hq ha
  have hg1 : st1.InState i g := (Store.InState.congr hseg g).mpr hg
  have hoff : st1.SameOff i (st.update i (·.filling bs origin)) := fun j hj =>
    (st.update_sameOff i _ j hj).trans (hsegs j)
  obtain ⟨r, hr, hrg⟩ := id hg
  have hr' : (st.update i (·.filling bs origin)).seg i = some (r.filling bs origin) := by
    rw [Store.seg_update_same, hsegs, hseg, hr]; rfl
  have hin : (st.update i (·.filling bs origin)).InState i .filling := ⟨_, hr', rfl⟩
  refine hlaw.change hoff ?_ (fun r' hx => ?_)
    (hlaw.resident.off hres hoff (Store.not_inState hg1 h2) (Store.not_inState hin nofun))
    (hlaw.queued.off hni hoff) ((Engine.fits_of_loads he _).mpr hin)
  · rw [Store.blocksOf_declared hr', hlaw.blocksOf_eq_nil hg1 h1 h2, List.append_nil, ← hfree]
    exact List.perm_append_comm
  · cases hr'.symm.trans hx
    refine (SegRecord.blocksFit_loaded (.inl rfl)).mpr ?_
    show bs.length = blocksFor r.length
    rw [hlen, Store.lengthOf_declared hr]

theorem Store.verify_seg (st : Store) (i j : SegId) : (st.verify i).seg j =
    if j = i then (st.seg i).map fun r => { r with
      state := .resident, origin := none, fills := min 65535 (r.fills + 1), held := 0 }
    else st.seg j := Store.seg_update ..

theorem StoreView.Law.complete {v : StoreView} (h : v.Law) {i : SegId} (he : v.engine.loads = some i) :
    StoreView.Law ⟨v.store.verify i, v.queue, .idle⟩ := by
  have hi := h.loads he
  obtain ⟨r, hr, hs⟩ := hi
  have hoff : v.store.SameOff i (v.store.verify i) := fun j hj => (v.store.verify_seg i j).trans (if_neg hj)
  have hr' : (v.store.verify i).seg i = some { r with
      state := .resident, origin := none, fills := min 65535 (r.fills + 1), held := 0 } := by
    rw [Store.verify_seg, if_pos rfl, hr]; rfl
  refine h.change hoff ?_ (fun r' hx => ?_) (h.resident.touch rfl ⟨_, hr', rfl⟩ hoff)
    (h.queued.off (h.not_queued (h.loads he) nofun) hoff) trivial
  · rw [Store.blocksOf_declared hr', Store.blocksOf_declared hr]; exact .refl _
  · cases hr'.symm.trans hx
    exact (SegRecord.blocksFit_loaded (.inr rfl)).mpr ((SegRecord.blocksFit_loaded (.inl hs)).mp (h.fit i r hr))

theorem StoreView.Law.reset (sram : List Host.Cell) : StoreView.Law ⟨Store.reset sram, [], .idle⟩ :=
  (storeLaw_iff { State.reset with store := Store.reset sram }).mp (.of_reset (l := none) rfl rfl)

/-- Every elementary move keeps the law of the store. -/
theorem StoreMove.law {v w : StoreView} (hm : StoreMove v w) (h : v.Law) : w.Law := by
  cases hm with
  | bytes blocks data o => exact h.bytes _
  | record i hf => exact h.record i hf
  | touch hi => exact h.touch hi
  | declare hi hs hb => exact h.declare hi hs hb
  | drop hi => exact h.drop hi
  | clear hi => exact h.clear hi
  | release hr h1 h2 => exact h.release hr h1 h2
  | enqueue hi room => exact h.enqueue hi
  | skip _ hq hi =>
    obtain ⟨-, -, hrest⟩ := h.head hq
    exact ⟨h.blocks, h.fit, h.resident, hrest, h.current⟩
  | await _ hq hr d => exact h.await hq d
  | begin hbeg ha origin he => exact h.begin hbeg ha origin he
  | progress hl he =>
    exact ⟨h.blocks, h.fit, h.resident, h.queued, (Engine.fits_of_loads he _).mpr (h.loads hl)⟩
  | complete hl => exact h.complete hl
  | settle he hs hb => exact h.settle he hs hb
  | reset => exact .reset _

theorem Moves.storeLaw {s t : State} (h : Moves s t) (hs : StoreLaw s) : StoreLaw t :=
  (storeLaw_iff t).mpr (h.keeps (fun _ _ => StoreMove.law) ((storeLaw_iff s).mp hs))

end Sys2Proof.Machine
end

section
/-! PROOFS. Every command changes the store, the fill queue and the engine by elementary moves: one lemma per
operation, then one per command, and the two laws of the store with it. -/

namespace Sys2Proof.Machine

/-! ### Chains of moves -/

theorem Moves.of_view {s t : State} (h : t.view = s.view) : Moves s t := by
  unfold Moves; rw [h]

theorem Moves.of_same {s t : State} (hs : t.store = s.store) (hf : t.fill = s.fill) : Moves s t :=
  .of_view (by unfold State.view; rw [hs, hf])

theorem Moves.refl (s : State) : Moves s s := .of_view rfl

theorem Moves.single {s t : State} (h : StoreMove s.view t.view) : Moves s t := Relation.ReflTransGen.single h

theorem Moves.trans {s t u : State} (h : Moves s t) (h' : Moves t u) : Moves s u := Relation.ReflTransGen.trans h h'

/-- What comes after an event that leaves the store, the queue and the engine alone. -/
theorem Moves.after {s s' t : State} (h : Moves s' t) (hv : s'.view = s.view) : Moves s t := (Moves.of_view hv).trans h

/-! ### Host presentations -/

theorem enqueueFill_moves {s : State} {i : SegId}
    (h : s.store.InState i .absent ∨ s.store.InState i .failed) (room : s.fill.queue.length < 8) :
    Moves s (s.enqueueFill i) := .single (.enqueue s.view h room)

theorem requestFill_moves {s : State} {i : SegId} (h : s.store.InState i .absent) : Moves s (s.requestFill i) := by
  unfold State.requestFill
  split
  · exact enqueueFill_moves (.inl h) ‹_›
  · exact .refl s

/-- A read routed downstream changes the store only by its fill request, for an ABSENT segment (R61). -/
theorem readDownstream_moves (q : ReadRequest) (seg : Option SegId) {request : Option SegId} {s : State}
    (h : ∀ i, request = some i → s.store.InState i .absent) : Moves s (readDownstream q seg request s) := by
  unfold readDownstream
  split
  · exact .of_view rfl
  · split
    · exact .of_view rfl
    · split
      · exact (requestFill_moves (s := s.admitRead q) (h _ rfl)).after rfl
      · exact .of_view rfl

theorem holdRead_moves (s : State) (q : ReadRequest) (h : Hit) : Moves s (s.holdRead q h) :=
  .single (.record s.view h.seg fun _ => ⟨rfl, rfl, rfl⟩)

theorem parkRead_moves (q : ReadRequest) (h : Hit) {absent : Bool} {s : State}
    (ha : absent = true → s.store.InState h.seg .absent) : Moves s (parkRead q h absent s) := by
  unfold parkRead
  split
  · exact .of_view rfl
  · split
    · exact .of_view rfl
    · rename_i hroom
      split
      · rename_i habs
        refine (holdRead_moves s q h).trans (enqueueFill_moves (.inl ?_) ?_)
        · exact (s.store.inState_record h.seg (f := fun r => { r with held := r.held + 1 })
          (fun _ => ⟨rfl, rfl, rfl⟩) _ _).mpr (ha habs)
        · exact Nat.lt_of_not_le fun hx => hroom ⟨habs, hx⟩
      · exact holdRead_moves s q h

theorem routeHit_moves (q : ReadRequest) (h : Hit) (s : State) : Moves s (routeHit q h s) := by
  unfold routeHit
  split
  · exact readDownstream_moves q none nofun
  · rename_i r hr
    split
    · exact .single (.touch s.view ⟨r, hr, ‹_›⟩)
    · exact parkRead_moves q h fun _ => ⟨r, hr, ‹_›⟩
    · exact .of_view rfl
    · exact parkRead_moves q h nofun
    · exact readDownstream_moves q _ (by rintro i ⟨⟩; exact ⟨r, hr, ‹_›⟩)
    · exact readDownstream_moves q _ nofun
    · exact readDownstream_moves q _ nofun
    · exact .of_view rfl

theorem acceptRead_moves (q : ReadRequest) {onHit : Hit → State → State} {s : State}
    (hh : ∀ h, Moves s (onHit h s)) : Moves s (acceptRead q onHit s) := by
  unfold acceptRead
  split
  · exact .of_view rfl
  · split
    · exact .of_view rfl
    · split
      · exact .of_view rfl
      · split
        · exact readDownstream_moves q none nofun
        · exact hh _

theorem presentRead_moves (q : ReadRequest) (part : PresentPart) (s : State) :
    Moves s (presentRead q part s) := by
  rcases presentRead_spec q part s with ⟨-, -, e⟩ | ⟨-, -, e⟩ | ⟨h, -, -, e⟩ | e <;> rw [e]
  · exact acceptRead_moves q fun h => routeHit_moves q h s
  · exact acceptRead_moves q fun h => .of_view rfl
  · exact (routeHit_moves q h (s.setLooked none)).after rfl
  · exact .refl s

theorem admitWrite_moves (addr : Nat) (data : List Byte) (seg : Option SegId) (s : State) :
    Moves s (admitWrite addr data seg s) := by
  unfold admitWrite
  split
  · exact .of_view rfl
  · split
    · exact .of_view rfl
    · split <;> exact .of_view rfl

/-- An overlay write: bytes, the dirty flag, a touch (R33). -/
theorem shadowWrite_moves (addr : Nat) (data : List Byte) (h : Hit) (s : State) :
    Moves s (shadowWrite addr data h s) := by
  unfold shadowWrite
  split
  · rename_i r hr
    split
    · have hstored := StoreMove.bytes s.view r.blocks data h.offset
      have hdirty := StoreMove.record
        { s.view with store := { s.store with sram := overlayStore r.blocks data h.offset s.store.sram } } h.seg
        (f := fun r => { r with dirty := true }) fun _ => ⟨rfl, rfl, rfl⟩
      have htouch := StoreMove.touch (i := h.seg)
        ⟨Store.update { s.store with sram := overlayStore r.blocks data h.offset s.store.sram } h.seg
          fun r => { r with dirty := true }, s.fill.queue, s.fill.engine⟩
        ⟨{ r with dirty := true }, by rw [Store.seg_update_same]; exact congrArg _ hr, ‹_›⟩
      exact ((Relation.ReflTransGen.single hstored).tail hdirty).tail htouch
    · exact .of_view rfl
  · exact .of_view rfl

theorem routeWriteHit_moves (addr : Nat) (data : List Byte) (h : Hit) (s : State) :
    Moves s (routeWriteHit addr data h s) := by
  unfold routeWriteHit
  split
  · exact .single (.record s.view h.seg fun _ => ⟨rfl, rfl, rfl⟩)
  · exact admitWrite_moves ..
  · exact shadowWrite_moves ..
  · exact .of_view rfl

theorem lookWriteHit_moves (addr : Nat) (data : List Byte) (h : Hit) (s : State) :
    Moves s (lookWriteHit addr data h s) := by
  unfold lookWriteHit
  split
  · exact .of_view rfl
  · exact routeWriteHit_moves ..

theorem acceptWrite_moves (addr : Nat) (data : List Byte) {onHit : Hit → State → State} {s : State}
    (hh : ∀ h, Moves s (onHit h s)) : Moves s (acceptWrite addr data onHit s) := by
  unfold acceptWrite
  split
  · exact .of_view rfl
  · split
    · exact .of_view rfl
    · split
      · exact admitWrite_moves ..
      · exact hh _

theorem presentWrite_moves (addr : Nat) (data : List Byte) (part : PresentPart) (s : State) :
    Moves s (presentWrite addr data part s) := by
  rcases presentWrite_spec addr data part s with ⟨-, -, e⟩ | ⟨-, -, e⟩ | ⟨h, -, -, e⟩ | e <;> rw [e]
  · exact acceptWrite_moves addr data fun h => routeWriteHit_moves ..
  · exact acceptWrite_moves addr data fun h => lookWriteHit_moves ..
  · exact (routeWriteHit_moves addr data h (s.setLooked none)).after rfl
  · exact .refl s

/-! ### Fills

The state in which a fill begins or ends may have its head taken from the queue already: `u` has the store of `s`, and
its queue is the one that `StoreView.Begins` or `StoreView.Ends` leaves. -/

theorem failFill_moves {s u : State} {i : SegId} (hu : u.store = s.store) (h : s.view.Ends i u.fill.queue)
    (reason : FailReason) : Moves s (failFill i reason u) := by
  have h1 := StoreMove.settle s.view h
    (f := fun r => { r with state := .failed, lastFailure := some reason, origin := none })
    (fun _ => .inr rfl) (fun _ => rfl)
  have h2 := (Relation.ReflTransGen.single h1).tail
    (.record _ i (f := fun r => { r with held := 0 }) fun _ => ⟨rfl, rfl, rfl⟩)
  have hv : (failFill i reason u).view =
      ⟨(s.store.failSegment i reason).update i fun r => { r with held := 0 }, u.fill.queue, .idle⟩ := by
    rw [← hu]; rfl
  unfold Moves
  rw [hv]
  exact h2

theorem completeFill_moves {s : State} {i : SegId} (h : s.fill.engine.loads = some i) (origin : Origin) :
    Moves s (completeFill i origin s) := .single (.complete s.view h)

theorem undoFill_moves {s : State} {i : SegId} (h : s.fill.engine.loads = some i) (prior : Prior) :
    Moves s (undoFill i prior s).1 := by
  have hf : ∀ r : SegRecord, ({ r with state := prior.state, origin := none } : SegRecord).state = .absent ∨
      ({ r with state := prior.state, origin := none } : SegRecord).state = .failed := fun _ => by
    cases prior
    · exact .inl rfl
    · exact .inr rfl
  have hundo : StoreMove s.view ⟨s.store.undoFill i prior, s.fill.queue, .idle⟩ :=
    .settle s.view (.loads h) hf fun _ => rfl
  unfold undoFill
  dsimp only
  split
  · exact .single hundo
  · split
    · rename_i hheld hroom
      refine (Relation.ReflTransGen.single hundo).tail (.enqueue _ (i := i) ?_ hroom)
      cases hr : s.store.seg i with
      | none => exact absurd (by simp [Store.heldOf, hr]) hheld
      | some r =>
        have hin : (s.store.freeBlocks i).InState i r.state := Store.InState.freeBlocks ⟨r, hr, rfl⟩
        cases prior
        · exact .inl (hin.update fun _ => rfl)
        · exact .inr (hin.update fun _ => rfl)
    · exact (Relation.ReflTransGen.single hundo).tail
        (.record _ i (f := fun r => { r with held := 0 }) fun _ => ⟨rfl, rfl, rfl⟩)

theorem requestChunk_view (s : State) : s.requestChunk.view = s.view := by
  unfold State.requestChunk
  split <;> rfl

theorem startCatalogFill_moves {s u : State} {i : SegId} (hu : u.store = s.store)
    (h : s.view.Begins i u.fill.queue) {r : SegRecord} (hr : s.store.seg i = some r) (image : Nat)
    (origin : Origin) : Moves s (startCatalogFill i r image origin u) := by
  have hfail := failFill_moves hu (.begins h)
  unfold startCatalogFill
  split
  · exact hfail _
  · split
    · exact hfail _
    · split
      · exact hfail _
      · rename_i bs st evs ha
        rw [hu, ← Store.lengthOf_declared hr] at ha
        unfold Moves
        rw [requestChunk_view]
        exact .single (.begin s.view h ha origin (e := .loadingCatalog i origin 0 crc16Init) rfl)

theorem takeHead_moves (s : State) : Moves s (takeHead s) := by
  unfold takeHead
  split
  · rename_i i rest he hq
    dsimp only
    split
    · rename_i r hr
      split
      · exact .single (.await s.view he hq hr _)
      · exact startCatalogFill_moves (s := s) (u := { s with fill := { s.fill with queue := rest } }) rfl
          (.head he hq) hr _ _
    · exact .single (.skip s.view he hq ‹_›)
  · exact .refl s

theorem beginHostFill_moves {s : State} {i : SegId} (h : s.view.Begins i s.fill.queue) (origin : Origin) :
    Moves s (beginHostFill i origin s).state := by
  unfold beginHostFill
  dsimp only
  split
  · exact failFill_moves rfl (.begins h) _
  · exact .single (.begin s.view h ‹_› origin rfl)

theorem chunkArrived_moves (data : List Byte) (s : State) : Moves s (chunkArrived data s).1 := by
  unfold chunkArrived
  split
  · rename_i i origin n crc he
    have hl : s.fill.engine.loads = some i := by rw [he]; rfl
    have hb : Moves s { s with store := { s.store with
        sram := overlayStore (s.store.blocksOf i) data n s.store.sram } } :=
      .single (.bytes s.view _ _ _)
    dsimp only
    split
    · refine hb.trans ?_
      unfold Moves
      rw [requestChunk_view]
      exact .single (.progress _ hl rfl)
    · split
      · refine hb.trans ?_
        dsimp only
        exact completeFill_moves (by exact hl) _
      · refine hb.trans ?_
        dsimp only
        exact failFill_moves rfl (.loads (by exact hl)) _
  all_goals exact .refl s

theorem stallFill_moves (s : State) : Moves s (stallFill s).1 := by
  unfold stallFill
  split
  · rename_i he
    exact failFill_moves (u := s.withdrawChunk) rfl (.loads (congrArg Engine.loads he)) _
  all_goals exact .refl s

/-! ### Catalog loader and start-up sequencer -/

theorem setOutcome_view (s : State) (o : StartOutcome) : (s.setOutcome o).view = s.view := by
  rw [State.setOutcome_eq]; rfl

theorem setOutcome_moves (s : State) (o : StartOutcome) : Moves s (s.setOutcome o) := .of_view (setOutcome_view s o)

theorem mapEvent_moves (s : State) : Moves s (mapEvent s) := by
  unfold mapEvent
  split
  · rename_i e _ _
    have hf := writeBootEntry_frame s e
    have hst : (writeBootEntry s e).store = s.store := hf .store (by decide)
    have hfl : (writeBootEntry s e).fill = s.fill := hf .fill (by decide)
    exact .of_same hst hfl
  · exact .of_view rfl

theorem requestPreload_moves {id : Byte} {s : State} (he : s.fill.engine = .idle) :
    Moves s (requestPreload id s).1 := by
  unfold requestPreload
  split
  · exact .refl s
  · split
    · exact .refl s
    · rename_i r hr
      split
      · exact .refl s
      · exact startCatalogFill_moves rfl (.direct he (.inl ⟨r, hr, ‹_›⟩)) hr _ _
      · exact startCatalogFill_moves rfl (.direct he (.inr ⟨r, hr, ‹_›⟩)) hr _ _
      · exact .refl s

theorem preloadEvent_moves (s : State) : Moves s (preloadEvent s) := by
  unfold preloadEvent
  split
  · rename_i hidle
    split
    · rename_i id _ _
      have hr := requestPreload_moves (id := id) hidle.1
      split
      · rename_i e; rw [e] at hr; exact hr.trans (.of_view rfl)
      · rename_i e; rw [e] at hr; exact hr
    · exact .of_view rfl
  · exact .refl s

theorem commitStartup_moves (s : State) : Moves s (commitStartup s) := by
  have hst : (commitStartup s).store = s.store := commitStartup_frame s .store (by decide)
  have hfl : (commitStartup s).fill = s.fill := commitStartup_frame s .fill (by decide)
  exact .of_same hst hfl

theorem sequencerEvent_moves (s : State) : Moves s (sequencerEvent s) := by
  rcases sequencerEvent_spec s with ⟨-, e⟩ | ⟨-, e⟩ | ⟨-, -, e⟩ | ⟨-, -, e⟩ | ⟨-, -, -, e⟩ <;> rw [e]
  · exact mapEvent_moves s
  · exact preloadEvent_moves s
  · exact .of_view rfl
  · exact commitStartup_moves s
  · exact .refl s

theorem respondLong_moves (s : State) (phase : Phase) (st : Status) (p : List Byte) :
    Moves s (s.respondLong phase st p) := by
  unfold State.respondLong
  split
  · split <;> exact .of_view rfl
  · exact .refl s

theorem catalogEnd_moves (result : CatalogResult) (s : State) : Moves s (catalogEnd result s) := by
  unfold catalogEnd
  refine Moves.after (s' := { s with startup := { s.startup with catalog := none } }) ?_ rfl
  dsimp only
  split
  · split
    · exact .of_view rfl
    all_goals exact (setOutcome_moves _ _).trans (.of_view rfl)
  · split <;> exact respondLong_moves ..

theorem requestCatalog_moves (s : State) : Moves s (requestCatalog s) := by
  unfold requestCatalog
  split
  · split
    · exact .of_view rfl
    · exact catalogEnd_moves ..
    · exact catalogEnd_moves ..
  · exact .refl s

theorem readCatalog_moves (c : CatalogRead) (s : State) : Moves s (readCatalog c s) :=
  (requestCatalog_moves _).after rfl

/-- A descriptor declares a segment that was not, or declares none (R43, R141). -/
theorem applyDescriptor_moves (acc : State × Nat × Nat) (bs : List Byte) :
    Moves acc.1 (applyDescriptor acc bs).1 := by
  obtain ⟨s, m, k⟩ := acc
  unfold applyDescriptor
  dsimp only
  split
  · exact .of_view rfl
  · split
    · exact .of_view rfl
    · split
      · rename_i st h
        unfold Store.declareCatalog at h
        split at h
        · cases h
        · cases h; exact .single (.declare s.view ‹_› rfl rfl)
      · exact .of_view rfl

theorem applyNext_moves (s : State) : Moves s (applyNext s) := by
  unfold applyNext
  split
  · rename_i next d rest m k _
    have hd := applyDescriptor_moves (s, m, k) d
    split
    · rename_i e _; rw [e] at hd; exact hd.trans (catalogEnd_moves ..)
    · rename_i e _; rw [e] at hd; exact hd.trans (.of_view rfl)
  · exact catalogEnd_moves ..
  all_goals exact .refl s

theorem nextEvent_moves (s : State) : Moves s (nextEvent s) := by
  rcases nextEvent_spec s with ⟨_, _, _, _, -, e⟩ | ⟨-, e⟩ <;> rw [e]
  · exact applyNext_moves s
  · exact sequencerEvent_moves s

theorem goOn_moves (n : Nat) (s : State) : Moves s (goOn n s) := by
  induction n generalizing s with
  | zero => exact .refl s
  | succ n ih => exact (nextEvent_moves s).trans (ih _)

theorem catalogArrived_moves (data : List Byte) (s : State) : Moves s (catalogArrived data s) := by
  unfold catalogArrived headerArrived descriptorsArrived
  split
  · dsimp only
    split
    · exact readCatalog_moves ..
    · split
      · exact catalogEnd_moves ..
      · split
        · exact catalogEnd_moves ..
        · exact readCatalog_moves ..
  · dsimp only
    split
    · exact readCatalog_moves ..
    · split
      · exact .of_view rfl
      · exact catalogEnd_moves ..
  all_goals exact .refl s

theorem requestBoot_moves (ahead : List Byte) (s : State) : Moves s (requestBoot ahead s) := by
  unfold requestBoot
  split <;> exact .of_same rfl rfl

theorem stageCatalog_moves (r : BootRecord) (s : State) : Moves s (stageCatalog r s) := by
  unfold stageCatalog
  dsimp only
  split
  · exact (readCatalog_moves _ _).after rfl
  · exact .of_view rfl

theorem endStartup_moves (s : State) (o : StartOutcome) : Moves s (endStartup (s.setOutcome o)) :=
  (setOutcome_moves s o).trans (.of_view rfl)

theorem bootArrived_moves (data ahead : List Byte) (s : State) : Moves s (bootArrived data ahead s) := by
  unfold bootArrived
  split
  · split
    · exact (requestBoot_moves ..).after rfl
    · exact endStartup_moves ..
    · exact stageCatalog_moves ..
  · exact .refl s

theorem pollTaken_moves (ahead : List Byte) (s : State) : Moves s (pollTaken ahead s) := by
  rcases pollTaken_spec ahead s with ⟨-, -, e⟩ | ⟨-, -, e⟩ | ⟨-, e⟩ <;> rw [e]
  · exact (requestBoot_moves ..).after rfl
  · exact endStartup_moves ..
  · exact .refl s

theorem preloadEnded_moves (failed : Bool) (taken : Nat) (s : State) :
    Moves s (preloadEnded failed taken s) := by
  rcases preloadEnded_spec failed taken s with ⟨-, e⟩ | ⟨-, e⟩ <;> rw [e]
  · exact (goOn_moves ..).after rfl
  · exact .refl s

/-! ### The serial link -/

theorem deliverLoader_moves (q : LoaderRequest) (data ahead : List Byte) (taken : Nat) (s : State) :
    Moves s (deliverLoader q data ahead taken s) := by
  unfold deliverLoader
  split
  · exact .refl s
  · split
    · have hc := chunkArrived_moves data s
      split <;> rename_i e <;> rw [e] at hc
      · exact hc
      · exact hc.trans (preloadEnded_moves ..)
      · exact hc.trans (preloadEnded_moves ..)
    · exact (catalogArrived_moves data s).trans (goOn_moves ..)
    · exact (bootArrived_moves data ahead s).trans (goOn_moves ..)

theorem completeRead_moves (data : List Byte) (s : State) : Moves s (completeRead data s) := by
  unfold completeRead
  split <;> exact .of_view rfl

theorem completeLoader_moves (data ahead : List Byte) (taken : Nat) (s : State) :
    Moves s (completeLoader data ahead taken s) := by
  unfold completeLoader
  split
  · exact (deliverLoader_moves ..).after rfl
  · exact .of_view rfl

theorem endRead_moves (data ahead : List Byte) (taken : Nat) (s : State) :
    Moves s (endRead data ahead taken s) := by
  unfold endRead
  split
  · split
    · split
      · exact completeRead_moves ..
      · exact completeLoader_moves ..
      all_goals exact .refl s
    · exact .refl s
  all_goals exact .refl s

theorem stallCatalog_moves (s : State) : Moves s (stallCatalog s) := by
  unfold stallCatalog
  split
  · exact catalogEnd_moves ..
  · exact catalogEnd_moves ..
  all_goals exact .refl s

theorem stallClients_moves (uncertain : Option (Nat × Nat)) (s : State) :
    Moves s (stallClients uncertain s) := by
  have hf : ∀ u : State, Moves u (flushLoader u) := fun u => (stallCatalog_moves _).after rfl
  exact ((stallFill_moves (errorReadQueue s).1).after rfl).trans ((hf _).trans (.of_view rfl))

theorem removeUncertain_moves (s : State) : Moves s (removeUncertain s).1 := by
  unfold removeUncertain
  split
  · split <;> exact .of_view rfl
  · exact .refl s

theorem pollTimeout_moves (s : State) : Moves s (pollTimeout s) := by
  unfold pollTimeout
  split
  · exact ((removeUncertain_moves s.stallLink).after rfl).trans (stallClients_moves ..)
  · exact (stallClients_moves none s.stallLink).after rfl
  all_goals exact .refl s

theorem pollComplete_moves (s : State) : Moves s (pollComplete s) := by
  unfold pollComplete
  split <;> exact .of_view rfl

theorem endPoll_moves (status : Byte) (s : State) : Moves s (endPoll status s) := by
  unfold endPoll
  split
  · refine Moves.after (s' := { s with ctl := { s.ctl with tx := none } }) ?_ rfl
    dsimp only
    split
    · exact pollComplete_moves _
    · split
      · exact pollTimeout_moves _
      · exact .refl _
  · exact .refl s

/-! ### Owners of management commands -/

theorem ownMapWrite_moves (p : List Byte) (s : State) : Moves s (ownMapWrite p s).state := by
  unfold ownMapWrite
  split <;> exact .of_view rfl

theorem ownMapClear_moves (p : List Byte) (s : State) : Moves s (ownMapClear p s).state := by
  unfold ownMapClear
  split
  · exact .of_view rfl
  · split <;> exact .of_view rfl

theorem ownMapRead_moves (p : List Byte) (s : State) : Moves s (ownMapRead p s).state := by
  unfold ownMapRead
  split
  · split <;> exact .refl s
  · exact .refl s

theorem ownMapCommit_moves (p : List Byte) (s : State) : Moves s (ownMapCommit p s).state := by
  unfold ownMapCommit
  split <;> exact .of_view rfl

theorem withDeclared_moves {p : List Byte} {s : State} {k : SegId → SegRecord → Reply}
    (hk : ∀ i r, s.store.seg i = some r → Moves s (k i r).state) : Moves s (withDeclared p s k).state := by
  unfold withDeclared
  split
  · exact .refl s
  · split
    · exact .refl s
    · exact hk _ _ ‹_›

theorem ownSegDeclare_moves (p : List Byte) (s : State) : Moves s (ownSegDeclare p s).state := by
  unfold ownSegDeclare
  split
  · split
    · exact .refl s
    · split
      · split
        · exact .refl s
        · exact .single (.declare s.view ‹_› rfl rfl)
      · exact .refl s
  · exact .refl s

/-- A release that is not refused is of a segment neither REQUESTED nor FILLING (R44). -/
theorem releaseRefusal_state {i : SegId} {r : SegRecord} {force : Bool} {s : State}
    (h : releaseRefusal i r force s = none) : r.state ≠ .requested ∧ r.state ≠ .filling := by
  unfold releaseRefusal at h
  split at h
  · cases h
  · split at h
    · cases h
    · exact not_or.mp ‹_›

theorem ownSegRelease_moves (p : List Byte) (s : State) : Moves s (ownSegRelease p s).state := by
  unfold ownSegRelease
  split
  · refine withDeclared_moves fun i r hr => ?_
    split
    · exact .refl s
    · obtain ⟨h1, h2⟩ := releaseRefusal_state ‹_›
      exact .single (.release s.view hr h1 h2)
  · exact .refl s

theorem ownSegDrop_moves (p : List Byte) (s : State) : Moves s (ownSegDrop p s).state := by
  unfold ownSegDrop
  split
  · refine withDeclared_moves fun i r hr => ?_
    split
    · split
      · exact .refl s
      · exact .single (.drop s.view ⟨r, hr, ‹_›⟩)
    · exact .single (.clear s.view ⟨r, hr, ‹_›⟩)
    all_goals exact .refl s
  · exact .refl s

theorem ownSegPin_moves (p : List Byte) (s : State) : Moves s (ownSegPin p s).state := by
  unfold ownSegPin
  split
  · exact withDeclared_moves fun i r _ => .single (.record s.view i fun _ => ⟨rfl, rfl, rfl⟩)
  · exact .refl s

theorem ownSegQuery_moves (p : List Byte) (s : State) : Moves s (ownSegQuery p s).state := by
  unfold ownSegQuery
  split <;> exact .refl s

theorem ownSegRead_moves (p : List Byte) (s : State) : Moves s (ownSegRead p s).state := by
  unfold ownSegRead
  refine withDeclared_moves fun i r _ => ?_
  dsimp only
  split
  · exact .refl s
  · split
    · exact .refl s
    · split <;> exact .refl s

theorem ownPreload_moves (p : List Byte) (s : State) : Moves s (ownPreload p s).state := by
  unfold ownPreload
  refine withDeclared_moves fun i r hr => ?_
  have he : r.state = .absent ∨ r.state = .failed → Moves s (if Config.fillCapacity ≤ s.fill.queue.length then
      Reply.unchanged s .full else ⟨s.enqueueFill i, .ok, [SegState.queued.code]⟩).state := fun hs => by
    split
    · exact .refl s
    · exact enqueueFill_moves (hs.imp (⟨r, hr, ·⟩) (⟨r, hr, ·⟩)) (Nat.lt_of_not_le ‹_›)
  split
  any_goals exact .refl s
  · exact he (.inl ‹_›)
  · exact he (.inr ‹_›)

theorem ownFillBegin_moves (p : List Byte) (s : State) : Moves s (ownFillBegin p s).state := by
  unfold ownFillBegin
  refine withDeclared_moves fun i r hr => ?_
  split
  · split
    · rename_i he hj; subst hj
      exact beginHostFill_moves (.awaited he) _
    · exact .refl s
  · exact .refl s
  · exact .refl s
  · rename_i he
    split
    · exact beginHostFill_moves (.direct he (.inl ⟨r, hr, ‹_›⟩)) _
    · exact beginHostFill_moves (.direct he (.inr ⟨r, hr, ‹_›⟩)) _
    all_goals exact .refl s

theorem ownFillData_moves (p : List Byte) (s : State) : Moves s (ownFillData p s).state := by
  unfold ownFillData
  split
  · rename_i i origin n crc d he
    have hl : s.fill.engine.loads = some i := congrArg Engine.loads he
    dsimp only
    split
    · exact .refl s
    · split
      · exact .refl s
      · exact (Relation.ReflTransGen.single (.bytes s.view _ _ _)).tail (.progress _ hl rfl)
  all_goals exact .refl s

theorem ownFillEnd_moves (p : List Byte) (s : State) : Moves s (ownFillEnd p s).state := by
  unfold ownFillEnd
  split
  · rename_i i origin n crc d he
    have hl : s.fill.engine.loads = some i := congrArg Engine.loads he
    dsimp only
    split
    · exact failFill_moves rfl (.loads hl) _
    · split
      · exact failFill_moves rfl (.loads hl) _
      · exact completeFill_moves hl _
  all_goals exact .refl s

/-- The fill of a current segment may end: it is awaited or being loaded (R78). -/
theorem State.ends_current {s : State} {i : SegId} (h : s.fill.engine.current = some i) :
    s.view.Ends i s.fill.queue := by
  cases he : s.fill.engine with
  | idle => rw [he] at h; cases h
  | awaitHost j d => rw [he] at h; cases h; exact .begins (.awaited he)
  | loadingHost j o n c d => rw [he] at h; exact .loads (h ▸ congrArg Engine.loads he)
  | loadingCatalog j o n c => rw [he] at h; exact .loads (h ▸ congrArg Engine.loads he)

/-- A direct fill is one being loaded (R78). -/
theorem Engine.loads_of_direct {e : Engine} {i : SegId} {prior : Prior} (hc : e.current = some i)
    (ho : e.origin = some (.direct prior)) : e.loads = some i := by
  cases e with
  | idle => cases hc
  | awaitHost => cases ho
  | loadingHost => exact hc
  | loadingCatalog => exact hc

theorem ownFillAbort_moves (p : List Byte) (s : State) : Moves s (ownFillAbort p s).state := by
  unfold ownFillAbort
  split
  · exact .refl s
  · rename_i i _
    split
    · rename_i origin ho
      split
      · rename_i hc
        show Moves s (abortFill i origin s).1
        cases origin with
        | queue => exact failFill_moves (u := s.withdrawChunk) rfl (s.ends_current hc) _
        | direct prior => exact (undoFill_moves (s := s.withdrawChunk) (Engine.loads_of_direct hc ho) prior).after rfl
      · exact .refl s
    · exact .refl s

theorem ownEventRead_moves (p : List Byte) (s : State) : Moves s (ownEventRead p s).state := by
  unfold ownEventRead
  dsimp only
  split <;> exact .of_view rfl

theorem setParam_moves {ident value : Nat} {s t : State} (h : setParam ident value s = some t) : Moves s t := by
  unfold setParam at h
  split at h
  case h_6 => cases h
  all_goals split at h <;> cases h; exact .of_view rfl

theorem ownSetParam_moves (p : List Byte) (s : State) : Moves s (ownSetParam p s).state := by
  unfold ownSetParam
  split
  · exact setParam_moves ‹_›
  · exact .refl s

/-! ### One lemma per command -/

theorem runCommand_moves {s : State} (code : Byte) {owner : List Byte → State → Reply}
    (ho : ∀ p, Moves s (owner p s).state) : Leads (Moves s) (runCommand code owner s) :=
  .runCommand (.refl s) fun _ p _ => (ho p).trans (.of_view rfl)

theorem beginStartup_view (s : State) : (beginStartup s).view = s.view := by rw [beginStartup_eq]; rfl

theorem execPinReset_moves (powerOn : Bool) (s : State) : Leads (Moves s) (execPinReset powerOn s) := by
  unfold execPinReset
  split
  · exact .next (.refl s)
  · refine .next (Moves.after (s' := s.cutOff) (.single (.reset s.cutOff.view)) ?_)
    have hst : s.cutOff.store = s.store := s.cutOff_frame .store (by decide)
    have hfl : s.cutOff.fill = s.fill := s.cutOff_frame .fill (by decide)
    unfold State.view; rw [hst, hfl]

theorem execPinResetRelease_moves (sz : BitVec 3) (ma : BitVec 2) (bootEn : Bool) (s : State) :
    Leads (Moves s) (execPinResetRelease sz ma bootEn s) := by
  unfold execPinResetRelease
  split
  · refine .next ?_
    unfold Moves
    rw [beginStartup_view]
    exact .single (.reset s.view)
  · exact .next (.refl s)

theorem execReset_moves (s : State) : Leads (Moves s) (execReset s) := by
  unfold execReset
  split
  · refine .next ?_
    rw [softReset_eq]
    exact .single (.reset s.view)
  · exact .next (.refl s)

theorem execArbiterChoice_moves (s : State) : Leads (Moves s) (execArbiterChoice s) := by
  unfold execArbiterChoice grantRead grantWrite grantLoader
  split
  any_goals split
  all_goals exact .next (.of_view rfl)

theorem execReadTransactionEnd_moves (data : ReadEnd) (s : State) :
    Leads (Moves s) (execReadTransactionEnd data s) := by
  cases data with
  | ends bytes ahead taken => exact .next (endRead_moves ..)
  | goesOn count => exact .next (goOn_moves ..)

theorem execPollEnd_moves (status : PollAnswer) (s : State) : Leads (Moves s) (execPollEnd status s) := by
  cases status with
  | ends status ahead taken =>
    refine .next ?_
    split
    · exact (endPoll_moves ..).trans (pollTaken_moves ..)
    · exact endPoll_moves ..
  | taken ahead => exact .next (pollTaken_moves ..)

theorem execWriteEnableEnd_moves (s : State) : Leads (Moves s) (execWriteEnableEnd s) := by
  unfold execWriteEnableEnd
  split <;> exact .next (.of_view rfl)

theorem execWriteTransactionEnd_moves (s : State) : Leads (Moves s) (execWriteTransactionEnd s) := by
  unfold execWriteTransactionEnd
  split <;> exact .next (.of_view rfl)

theorem execPollStart_moves (s : State) : Leads (Moves s) (execPollStart s) := by
  unfold execPollStart
  split <;> exact .next (.of_view rfl)

theorem execBusyTimerExpiry_moves (s : State) : Leads (Moves s) (execBusyTimerExpiry s) := by
  unfold execBusyTimerExpiry
  split <;> exact .next (.of_view rfl)

theorem startWrite_moves (addr : BitVec 7) (s : State) : Moves s (startWrite addr s) := by
  unfold startWrite
  dsimp only
  split
  · split <;> exact .of_view rfl
  · exact .of_view rfl

theorem receiveBytes_moves (data : List Byte) (s : State) : Moves s (data.foldl receiveByte s) := by
  have hst : (data.foldl receiveByte s).store = s.store := receiveBytes_frame data s .store (by decide)
  have hfl : (data.foldl receiveByte s).fill = s.fill := receiveBytes_frame data s .fill (by decide)
  exact .of_same hst hfl

theorem execWriteTransferStart_moves (addr : WritePart) (s : State) :
    Leads (Moves s) (execWriteTransferStart addr s) := by
  unfold execWriteTransferStart
  split
  · exact .next ((startWrite_moves ..).trans (receiveBytes_moves ..))
  · exact .next (receiveBytes_moves ..)

theorem execFrameComplete_moves (code : Byte) (payload : List Byte) (check : Byte) (s : State) :
    Leads (Moves s) (execFrameComplete code payload check s) := by
  unfold execFrameComplete
  split
  · split <;> exact .next (.of_view rfl)
  · exact .next (.refl s)

theorem execFrameDiscard_moves (cause : DiscardCause) (s : State) :
    Leads (Moves s) (execFrameDiscard cause s) := by
  unfold execFrameDiscard
  split
  · split
    · split <;> exact .next (.of_view rfl)
    · exact .next (.of_view rfl)
  · exact .next (.refl s)

theorem execReadTransfer_moves (addr : Option (BitVec 7)) (count : Nat) (s : State) :
    Leads (Moves s) (execReadTransfer addr count s) := by
  unfold execReadTransfer
  split
  · dsimp only
    split <;> exact .next (.of_view rfl)
  · split <;> exact .next (.of_view rfl)

theorem takeBuffer_moves (b : BufId) (f : Frame) (seq : BitVec 8) (ok : Bool) (s : State) :
    Moves s (takeBuffer b f seq ok s) := by
  unfold takeBuffer
  dsimp only
  split <;> exact .of_view rfl

theorem execExecutorTake_moves (s : State) : Leads (Moves s) (execExecutorTake s) := by
  unfold execExecutorTake
  split
  · split
    · split
      · exact .next (takeBuffer_moves ..)
      all_goals exact .next (.refl s)
    · exact .next (.refl s)
  · exact .next (.refl s)

theorem execStatus_moves (owners : Nat) (s : State) : Leads (Moves s) (execStatus owners s) := by
  unfold execStatus
  split
  · dsimp only
    split <;> exact .next (.of_view rfl)
  · exact .next (.refl s)

theorem execCatalogLoad_moves (s : State) : Leads (Moves s) (execCatalogLoad s) := by
  unfold execCatalogLoad
  split
  · split
    · exact .next (.of_view rfl)
    all_goals exact .next ((readCatalog_moves _ _).after rfl)
  · exact .next (.refl s)

theorem execLinkRecover_moves (s : State) : Leads (Moves s) (execLinkRecover s) := by
  unfold execLinkRecover
  split
  · split <;> exact .next (.of_view rfl)
  · exact .next (.refl s)

theorem execLinkRecoverPollEnd_moves (status : Byte) (s : State) :
    Leads (Moves s) (execLinkRecoverPollEnd status s) := by
  unfold execLinkRecoverPollEnd
  split
  · split <;> exact .next ((respondLong_moves ..).after rfl)
  · exact .next (.refl s)

theorem execStartTimerExpiry_moves (s : State) : Leads (Moves s) (execStartTimerExpiry s) := by
  unfold execStartTimerExpiry
  split
  · exact .next (failFill_moves rfl (.begins (.awaited ‹_›)) _)
  all_goals exact .next (.refl s)

theorem execGapTimerExpiry_moves (s : State) : Leads (Moves s) (execGapTimerExpiry s) := by
  unfold execGapTimerExpiry
  split
  · rename_i he
    exact .next (failFill_moves rfl (.loads (congrArg Engine.loads he)) _)
  all_goals exact .next (.refl s)

/-! ### Every command, every step -/

/-- Every command changes the store, the fill queue and the engine by elementary moves alone. -/
theorem exec_moves (c : Instr) (s : State) : Leads (Moves s) (exec c s) := by
  cases c with
  | pinReset powerOn => exact execPinReset_moves powerOn s
  | pinResetRelease sz ma be => exact execPinResetRelease_moves sz ma be s
  | read tag addr len => exact .next (presentRead_moves ..)
  | write addr data => exact .next (presentWrite_moves ..)
  | arbiterChoice => exact execArbiterChoice_moves s
  | readTransactionEnd data => exact execReadTransactionEnd_moves data s
  | writeEnableEnd => exact execWriteEnableEnd_moves s
  | writeTransactionEnd => exact execWriteTransactionEnd_moves s
  | pollStart => exact execPollStart_moves s
  | busyTimerExpiry => exact execBusyTimerExpiry_moves s
  | pollEnd status => exact execPollEnd_moves status s
  | writeTransferStart addr => exact execWriteTransferStart_moves addr s
  | frameComplete code payload check => exact execFrameComplete_moves code payload check s
  | frameDiscard cause => exact execFrameDiscard_moves cause s
  | readTransfer addr count => exact execReadTransfer_moves addr count s
  | executorTake => exact execExecutorTake_moves s
  | identify => exact runCommand_moves 0x01 fun _ => .refl s
  | status owners => exact execStatus_moves owners s
  | setParam => exact runCommand_moves 0x03 fun p => ownSetParam_moves p s
  | reset => exact execReset_moves s
  | eventRead => exact runCommand_moves 0x05 fun p => ownEventRead_moves p s
  | mapWrite => exact runCommand_moves 0x10 fun p => ownMapWrite_moves p s
  | mapClear => exact runCommand_moves 0x11 fun p => ownMapClear_moves p s
  | mapCopy => exact runCommand_moves 0x12 fun p => .of_view rfl
  | mapRead => exact runCommand_moves 0x13 fun p => ownMapRead_moves p s
  | mapCommit => exact runCommand_moves 0x14 fun p => ownMapCommit_moves p s
  | segDeclare => exact runCommand_moves 0x20 fun p => ownSegDeclare_moves p s
  | segRelease => exact runCommand_moves 0x21 fun p => ownSegRelease_moves p s
  | segDrop => exact runCommand_moves 0x22 fun p => ownSegDrop_moves p s
  | segPin => exact runCommand_moves 0x23 fun p => ownSegPin_moves p s
  | segQuery => exact runCommand_moves 0x24 fun p => ownSegQuery_moves p s
  | segRead => exact runCommand_moves 0x25 fun p => ownSegRead_moves p s
  | preload => exact runCommand_moves 0x30 fun p => ownPreload_moves p s
  | fillBegin => exact runCommand_moves 0x31 fun p => ownFillBegin_moves p s
  | fillData => exact runCommand_moves 0x32 fun p => ownFillData_moves p s
  | fillEnd => exact runCommand_moves 0x33 fun p => ownFillEnd_moves p s
  | fillAbort => exact runCommand_moves 0x34 fun p => ownFillAbort_moves p s
  | catalogLoad => exact execCatalogLoad_moves s
  | linkRecover => exact execLinkRecover_moves s
  | linkRecoverPollEnd status => exact execLinkRecoverPollEnd_moves status s
  | takeHead => exact .next (takeHead_moves s)
  | startTimerExpiry => exact execStartTimerExpiry_moves s
  | gapTimerExpiry => exact execGapTimerExpiry_moves s

theorem step_moves (s : State) : Leads (Moves s) (step s) :=
  step_leads .refl (fun s c rest _ t ht => (exec_moves c { s with pending := rest } t ht).after rfl) s

/-- Settles O59: a step is made of elementary moves (`step_moves`), each of which keeps the law (`StoreMove.law`). -/
theorem storeLawKept : Obligations.StoreLawKept := fun s t hs h => (step_moves s t h).storeLaw hs

/-- Settles O57: a step is made of elementary moves, each of which keeps the canonical form (`StoreMove.sram_wf`). -/
theorem memoryLawKept : Obligations.MemoryLawKept := fun s t hs h => (step_moves s t h).memoryLaw hs

end Sys2Proof.Machine
end

section
/-! PROOFS. The commands of the segment store (R41 to R49): the checks they share, then one command after another. -/

namespace Sys2Proof.Machine

/-! ### A command whose owner changes some parts -/

/-- A command whose owner changes some parts, the management link not among them: its response placed. -/
theorem runCommand_changed {code : Byte} {s u : State} {b : BufId} {p : List Byte}
    {owner : List Byte → State → Reply} {st : Status} {pl : List Byte} {ps : List Part}
    (h : s.handed code = some (b, p)) (ho : owner p s = ⟨u, st, pl⟩) (hu : SameBut ps s u) (hm : .mgmt ∉ ps) :
    ∃ t, runCommand code owner s = .next t ∧ Answered b st pl s t ∧ SameBut (ps ++ [.mgmt]) s t ∧
      t.store = u.store ∧ t.fill = u.fill := by
  refine ⟨_, runCommand_handed h owner, ?_⟩
  rw [ho]
  exact ⟨State.respond_answered h (hu .mgmt hm) _ _, (hu.mono fun _ h => List.mem_append_left _ h).trans
    ((State.respond_frame _ _ _ _).mono (by simp)), rfl, rfl⟩

theorem State.setStore_frame (s : State) (st : Store) : SameBut [.store] s { s with store := st } := by
  intro p hp; cases p <;> simp_all [Part.same]

/-! ### The checks that come first (R41, R183) -/

theorem withDeclared_badId {p : List Byte} (h : segId? (byteAt p 0).toNat = none) (s : State)
    (k : SegId → SegRecord → Reply) : withDeclared p s k = .unchanged s .badArgument := by
  unfold withDeclared; rw [idArg_eq, h]

theorem withDeclared_undeclared {p : List Byte} {i : SegId} (h : segId? (byteAt p 0).toNat = some i) {s : State}
    (hi : s.store.seg i = none) (k : SegId → SegRecord → Reply) :
    withDeclared p s k = .unchanged s .notFound := by
  unfold withDeclared; rw [idArg_eq, h]; dsimp only; rw [hi]

/-- The owner is asked only about a declared segment (R41). -/
def ChecksSegment (owner : List Byte → State → Reply) : Prop := ∀ p s, ∃ k, owner p s = withDeclared p s k

/-- The owner checks the control byte at offset 1, then the segment (R183, R41). -/
def ChecksControl (owner : List Byte → State → Reply) : Prop :=
  ∀ p s, ∃ k, owner p s = if controlOk (byteAt p 1) then withDeclared p s k else .unchanged s .badArgument

/-- The three commands with a control byte (R44, R46, R47). -/
theorem exec_checksControl {code : Byte} {c : Instr}
    (h : (code, c) ∈ [((0x21 : Byte), Instr.segRelease), (0x22, .segDrop), (0x23, .segPin)]) (s : State) :
    ∃ owner, exec c s = runCommand code owner s ∧ ChecksControl owner := by
  simp only [List.mem_cons, Prod.mk.injEq, List.not_mem_nil, or_false] at h
  rcases h with ⟨rfl, rfl⟩ | ⟨rfl, rfl⟩ | ⟨rfl, rfl⟩
  · exact ⟨ownSegRelease, rfl, fun _ _ => ⟨_, rfl⟩⟩
  · exact ⟨ownSegDrop, rfl, fun _ _ => ⟨_, rfl⟩⟩
  · exact ⟨ownSegPin, rfl, fun _ _ => ⟨_, rfl⟩⟩

/-- The three commands on a segment without one (R49, R86, R94). -/
theorem exec_checksSegment {code : Byte} {c : Instr}
    (h : (code, c) ∈ [((0x25 : Byte), Instr.segRead), (0x30, .preload), (0x31, .fillBegin)]) (s : State) :
    ∃ owner, exec c s = runCommand code owner s ∧ ChecksSegment owner := by
  simp only [List.mem_cons, Prod.mk.injEq, List.not_mem_nil, or_false] at h
  rcases h with ⟨rfl, rfl⟩ | ⟨rfl, rfl⟩ | ⟨rfl, rfl⟩
  · exact ⟨ownSegRead, rfl, fun _ _ => ⟨_, rfl⟩⟩
  · exact ⟨ownPreload, rfl, fun _ _ => ⟨_, rfl⟩⟩
  · exact ⟨ownFillBegin, rfl, fun _ _ => ⟨_, rfl⟩⟩

theorem controlOk_false {x : Byte} (h : 1 < x.toNat) : ¬ controlOk x = true := by rw [controlOk_iff]; omega

/-- Settles O20, from the two forms in which the six commands check their segment. -/
theorem segmentRefusals : Obligations.SegmentRefusals := by
  refine ⟨fun code c s b p hc h => ?_, fun code c s b p hc h => ?_⟩
  · obtain ⟨owner, hexec, hchecks⟩ := exec_checksControl hc s
    obtain ⟨k, ho⟩ := hchecks p s
    rw [hexec]
    refine ⟨fun hbad => runCommand_unchanged h ?_, fun i hctl hid hi => runCommand_unchanged h ?_⟩
    · rw [ho]
      split
      · rename_i hok
        refine withDeclared_badId (hbad.resolve_left fun hx => ?_) s k
        exact controlOk_false hx hok
      · rfl
    · rw [ho, if_pos ((controlOk_iff _).mpr hctl), withDeclared_undeclared hid hi]
  · obtain ⟨owner, hexec, hchecks⟩ := exec_checksSegment hc s
    obtain ⟨k, ho⟩ := hchecks p s
    rw [hexec]
    exact ⟨fun hid => runCommand_unchanged h (ho.trans (withDeclared_badId hid s k)),
      fun i hid hi => runCommand_unchanged h (ho.trans (withDeclared_undeclared hid hi k))⟩

/-! ### SEG_DECLARE (R42) -/

/-- What SEG_DECLARE answers for a legal id: its checks in order, then the new record. -/
theorem ownSegDeclare_legalId {p : List Byte} {i : SegId} (hid : segId? (byteAt p 0).toNat = some i) (s : State) :
    ownSegDeclare p s =
      if field p 1 3 = 0 ∨ 65536 < field p 1 3 ∨ 1 < (byteAt p 6).toNat then .unchanged s .badArgument
      else if s.store.seg i ≠ none then .unchanged s .exists_
      else ⟨{ s with
        store := s.store.setSeg i
          (some (newRecord .host (field p 1 3) (declareCrc p) (decide (byteAt p 6 = 1)))) }, .ok, []⟩ := by
  unfold ownSegDeclare
  rw [idArg_eq, hid]
  dsimp only
  unfold declareLength
  by_cases hctl : (byteAt p 6).toNat ≤ 1
  · rw [if_pos ((controlOk_iff _).mpr hctl), controlBit_eq hctl]
    by_cases hlen : 1 ≤ field p 1 3 ∧ field p 1 3 ≤ 65536
    · rw [if_pos hlen, if_neg (by omega)]
      cases s.store.seg i <;> simp
    · rw [if_neg hlen, if_pos (by omega)]
  · rw [if_neg (controlOk_false (by omega)), if_pos (by omega)]

theorem ownSegDeclare_badId {p : List Byte} (hid : segId? (byteAt p 0).toNat = none) (s : State) :
    ownSegDeclare p s = .unchanged s .badArgument := by
  unfold ownSegDeclare
  rw [idArg_eq, hid]
  exact ite_self _

/-- Settles O21, from what SEG_DECLARE answers for a legal id. -/
theorem segDeclareEffect : Obligations.SegDeclareEffect := by
  rintro s b p _ h rfl
  cases hid : segId? (byteAt p 0).toNat with
  | none => exact runCommand_unchanged h (ownSegDeclare_badId hid s)
  | some i =>
    have ho := ownSegDeclare_legalId hid s
    dsimp only
    by_cases hbad : field p 1 3 = 0 ∨ 65536 < field p 1 3 ∨ 1 < (byteAt p 6).toNat
    · simp only [if_pos hbad] at ho ⊢
      exact runCommand_unchanged h ho
    · simp only [if_neg hbad] at ho ⊢
      by_cases hdecl : s.store.seg i ≠ none
      · simp only [if_pos hdecl] at ho ⊢
        exact runCommand_unchanged h ho
      · simp only [if_neg hdecl] at ho ⊢
        obtain ⟨t, ht, ha, hf, hst, -⟩ := runCommand_changed h ho (s.setStore_frame _) (by decide)
        refine ⟨t, ht, ha, hf, fun j hj => ?_, ?_⟩
        · rw [hst]; exact s.store.setSeg_sameOff i _ j hj
        · rw [hst]; exact ⟨rfl, rfl, rfl, Store.seg_setSeg_same ..⟩

/-! ### SEG_RELEASE (R44, R45) -/

/-- The refusals of a SEG_RELEASE whose segment no ACTIVE entry names, in order (R44). -/
theorem releaseRefusal_unnamed {i : SegId} {s : State} (h : s.map.names i = false) (r : SegRecord) (force : Bool) :
    releaseRefusal i r force s =
      if r.state = .requested ∨ r.state = .filling ∨ 0 < r.held then some .busy
      else if r.dirty = true ∧ force = false then some .dirty else none := by
  unfold releaseRefusal
  rw [h]
  by_cases hbusy : r.state = .requested ∨ r.state = .filling <;> by_cases hheld : 0 < r.held <;>
    simp [hheld, hbusy]

theorem ownSegRelease_refused {p : List Byte} {s : State} {i : SegId} {r : SegRecord} {st : Status}
    (hp : (byteAt p 0).toNat = segNum i) (hc : (byteAt p 1).toNat ≤ 1) (hr : s.store.seg i = some r)
    (h : releaseRefusal i r (decide (byteAt p 1 = 1)) s = some st) : ownSegRelease p s = .unchanged s st := by
  unfold ownSegRelease
  rw [if_pos ((controlOk_iff _).mpr hc), withDeclared_some hp hr, controlBit_eq hc, h]

theorem ownSegRelease_passed {p : List Byte} {s : State} {i : SegId} {r : SegRecord}
    (hp : (byteAt p 0).toNat = segNum i) (hc : (byteAt p 1).toNat ≤ 1) (hr : s.store.seg i = some r)
    (h : releaseRefusal i r (decide (byteAt p 1 = 1)) s = none) :
    ownSegRelease p s = ⟨releaseSegment i r s, .ok, []⟩ := by
  unfold ownSegRelease
  rw [if_pos ((controlOk_iff _).mpr hc), withDeclared_some hp hr, controlBit_eq hc, h]

/-- A control byte without reserved bits that is not 01h is 00h (R183). -/
theorem decide_control_false {x : Byte} (h : x.toNat ≤ 1) : decide (x = 1) = false ↔ x = 0 := by
  rw [decide_eq_false_iff_not]
  constructor
  · intro hne
    have : x.toNat ≠ 1 := fun e => hne (BitVec.eq_of_toNat_eq e)
    exact BitVec.eq_of_toNat_eq (by show x.toNat = 0; omega)
  · rintro rfl; decide

/-- What a release writes and leaves alone (R45). -/
theorem releaseSegment_spec {i : SegId} {r : SegRecord} {s : State} (hr : s.store.seg i = some r) :
    SameBut [.store, .fill] s (releaseSegment i r s) ∧ (releaseSegment i r s).store.seg i = none ∧
      s.store.SameOff i (releaseSegment i r s).store ∧ (releaseSegment i r s).store.sram = s.store.sram ∧
      (releaseSegment i r s).store.free =
        (if r.state = .resident then s.store.free ++ r.blocks else s.store.free) ∧
      (releaseSegment i r s).store.residence =
        (if r.state = .resident then s.store.residence.erase i else s.store.residence) ∧
      (releaseSegment i r s).fill =
        { s.fill with queue := if r.state = .queued then s.fill.queue.erase i else s.fill.queue } := by
  have hoff : s.store.SameOff i (if r.state = .resident then s.store.vacate i else s.store) := by
    split
    · exact s.store.freeBlocks_sameOff i
    · exact fun _ _ => rfl
  refine ⟨fun p hp => by cases p <;> simp_all [Part.same, releaseSegment], Store.seg_setSeg_same ..,
    hoff.trans (Store.setSeg_sameOff _ i none), ?_, ?_, ?_, rfl⟩
  all_goals unfold releaseSegment; dsimp only; split
  · rfl
  · rfl
  · rw [← Store.blocksOf_declared hr]; rfl
  · rfl
  · rfl
  · rfl

/-- Settles O22, from the order of the refusals (`releaseRefusal_unnamed`) and the release itself
(`releaseSegment_spec`). -/
theorem segReleaseEffect : Obligations.SegReleaseEffect := by
  intro s b p i r h hp hc hr
  by_cases hn : s.map.names i = true
  · obtain ⟨k, e, he, hseg⟩ := (s.map.names_iff i).mp hn
    obtain ⟨t, ht, ha⟩ :=
      runCommand_unchanged h (ownSegRelease_refused hp hc hr (releaseRefusal_of_names hn r _))
    exact ⟨t, ht, fun _ => ha, fun hno => absurd hseg (hno k e he)⟩
  · have hno : ¬ ∃ (k : MapIndex) (e : MapEntry), s.map.active[k] = some e ∧ e.seg = i := fun hx =>
      hn ((s.map.names_iff i).mpr hx)
    have hrefusal := releaseRefusal_unnamed (Bool.eq_false_iff.mpr hn) r (decide (byteAt p 1 = 1))
    simp only [decide_control_false hc] at hrefusal
    suffices hs : ∃ t, exec .segRelease s = .next t ∧ _ from
      hs.imp fun t ⟨ht, ha⟩ => ⟨ht, fun hx => absurd hx hno, fun _ => ha⟩
    by_cases hbusy : r.state = .requested ∨ r.state = .filling ∨ 0 < r.held
    · simp only [if_pos hbusy] at hrefusal ⊢
      exact runCommand_unchanged h (ownSegRelease_refused hp hc hr hrefusal)
    · simp only [if_neg hbusy] at hrefusal ⊢
      by_cases hdirty : r.dirty = true ∧ byteAt p 1 = 0
      · simp only [if_pos hdirty] at hrefusal ⊢
        exact runCommand_unchanged h (ownSegRelease_refused hp hc hr hrefusal)
      · simp only [if_neg hdirty] at hrefusal ⊢
        obtain ⟨hf, hgone, hoff, hsram, hfree, hres, hfill⟩ := releaseSegment_spec hr
        obtain ⟨t, ht, ha, hft, hst, hfl⟩ :=
          runCommand_changed h (ownSegRelease_passed hp hc hr hrefusal) hf (by decide)
        refine ⟨t, ht, ha, hft, ?_⟩
        unfold OtherSegsSame
        rw [hst, hfl]
        exact ⟨hgone, hoff, hsram, hfree, hres, hfill⟩

/-! ### SEG_DROP (R46) -/

theorem ownSegDrop_declared {p : List Byte} {s : State} {i : SegId} {r : SegRecord}
    (hp : (byteAt p 0).toNat = segNum i) (hc : (byteAt p 1).toNat ≤ 1) (hr : s.store.seg i = some r) :
    ownSegDrop p s =
      if r.state = .resident ∧ r.dirty = true ∧ byteAt p 1 = 0 then .unchanged s .dirty
      else if r.state = .resident then
        ⟨{ s with store := (s.store.vacate i).update i fun r => { r with state := .absent, dirty := false } },
          .ok, []⟩
      else if r.state = .failed then
        ⟨{ s with store := s.store.update i fun r => { r with state := .absent } }, .ok, []⟩
      else .unchanged s .wrongState := by
  unfold ownSegDrop
  rw [if_pos ((controlOk_iff _).mpr hc), withDeclared_some hp hr, controlBit_eq hc]
  simp only [decide_control_false hc]
  cases r.state with
  | resident => simp only [true_and]; rfl
  | _ => rfl

/-- Settles O23, from what SEG_DROP answers by the segment's state (`ownSegDrop_declared`). -/
theorem segDropEffect : Obligations.SegDropEffect := by
  intro s b p i r h hp hr
  by_cases hc : 1 < (byteAt p 1).toNat
  · simp only [if_pos hc]
    exact runCommand_unchanged h (if_neg (controlOk_false hc))
  simp only [if_neg hc]
  have ho := ownSegDrop_declared hp (Nat.le_of_not_lt hc) hr
  by_cases hdirty : r.state = .resident ∧ r.dirty = true ∧ byteAt p 1 = 0
  · simp only [if_pos hdirty] at ho ⊢
    exact runCommand_unchanged h ho
  simp only [if_neg hdirty] at ho ⊢
  by_cases hres : r.state = .resident
  · simp only [if_pos hres] at ho ⊢
    obtain ⟨t, ht, ha, hf, hst, -⟩ := runCommand_changed h ho (s.setStore_frame _) (by decide)
    refine ⟨t, ht, ha, hf, ?_⟩
    unfold OtherSegsSame
    rw [hst, ← Store.blocksOf_declared hr]
    refine ⟨(s.store.freeBlocks_sameOff i).trans (Store.update_sameOff _ i _), ?_, rfl, rfl, rfl⟩
    have hfreed : (s.store.vacate i).seg i = some { r with blocks := [] } :=
      (s.store.seg_freeBlocks i i).trans (by rw [if_pos rfl, hr]; rfl)
    rw [Store.seg_update_same, hfreed]
    rfl
  simp only [if_neg hres] at ho ⊢
  by_cases hfailed : r.state = .failed
  · simp only [if_pos hfailed] at ho ⊢
    obtain ⟨t, ht, ha, hf, hst, -⟩ := runCommand_changed h ho (s.setStore_frame _) (by decide)
    refine ⟨t, ht, ha, hf, ?_⟩
    unfold OtherSegsSame
    rw [hst]
    exact ⟨Store.update_sameOff _ i _, by rw [Store.seg_update_same, hr]; rfl, rfl, rfl, rfl⟩
  · simp only [if_neg hfailed] at ho ⊢
    exact runCommand_unchanged h ho

/-! ### SEG_PIN (R47) -/

/-- Settles O24: past the shared checks the owner changes the one flag of the record. -/
theorem segPinEffect : Obligations.SegPinEffect := by
  intro s b p i r h hp hr
  by_cases hc : (byteAt p 1).toNat ≤ 1
  · simp only [if_pos hc]
    have ho : ownSegPin p s =
        ⟨{ s with store := s.store.update i fun r => { r with pinned := decide (byteAt p 1 = 1) } }, .ok, []⟩ := by
      unfold ownSegPin
      rw [if_pos ((controlOk_iff _).mpr hc), withDeclared_some hp hr, controlBit_eq hc]
    obtain ⟨t, ht, ha, hf, hst, -⟩ := runCommand_changed h ho (s.setStore_frame _) (by decide)
    refine ⟨t, ht, ha, hf, ?_⟩
    unfold OtherSegsSame
    rw [hst]
    exact ⟨Store.update_sameOff _ i _, by rw [Store.seg_update_same, hr]; rfl, rfl, rfl, rfl⟩
  · simp only [if_neg hc]
    exact runCommand_unchanged h (if_neg (controlOk_false (Nat.lt_of_not_le hc)))

/-! ### SEG_QUERY and SEG_READ (R48, R49) -/

theorem ownSegQuery_badId {p : List Byte} (h : segId? (byteAt p 0).toNat = none) (s : State) :
    ownSegQuery p s = .unchanged s .badArgument := by
  unfold ownSegQuery; rw [idArg_eq, h]

theorem ownSegQuery_id {p : List Byte} {i : SegId} (h : segId? (byteAt p 0).toNat = some i) (s : State) :
    ownSegQuery p s = .unchanged s .ok (segQueryPayload s.store i) := by
  unfold ownSegQuery; rw [idArg_eq, h]

/-- SEG_READ's checks in order and its answer (R49). -/
theorem ownSegRead_declared {p : List Byte} {s : State} {i : SegId} {r : SegRecord}
    (hp : (byteAt p 0).toNat = segNum i) (hr : s.store.seg i = some r) : ownSegRead p s =
      if (byteAt p 3).toNat = 0 ∨ 64 < (byteAt p 3).toNat ∨
          (r.length + 255) / 256 * 256 < field p 1 2 + (byteAt p 3).toNat then .unchanged s .badArgument
      else if r.state = .resident then
        .unchanged s .ok (overlayBytes s.store.sram r.blocks (field p 1 2) (byteAt p 3).toNat)
      else .unchanged s .wrongState := by
  unfold ownSegRead segReadArgs
  rw [withDeclared_some hp hr, field_byte3]
  dsimp only
  by_cases hcount : (byteAt p 3).toNat = 0 ∨ 64 < (byteAt p 3).toNat
  · rw [if_pos hcount, if_pos (by omega)]
  · rw [if_neg hcount]
    by_cases hfar : blocksFor r.length * 256 < field p 1 2 + (byteAt p 3).toNat
    · rw [if_pos hfar, if_pos (.inr (.inr hfar))]
    · have hok : ¬ ((byteAt p 3).toNat = 0 ∨ 64 < (byteAt p 3).toNat ∨
          (r.length + 255) / 256 * 256 < field p 1 2 + (byteAt p 3).toNat) := by
        unfold blocksFor at hfar; omega
      rw [if_neg hfar, if_neg hok]
      by_cases hs : r.state = .resident <;> simp [hs]

/-- Settles O25, from the payload of SEG_QUERY and the checks of SEG_READ (`ownSegRead_declared`). -/
theorem segInspected : Obligations.SegInspected := by
  refine ⟨rfl, rfl, fun s b p h => ?_, fun s b p i r h hp hr => ?_⟩
  · cases hid : segId? (byteAt p 0).toNat with
    | none =>
      obtain ⟨t, ht, ha, hf⟩ := runCommand_unchanged h (ownSegQuery_badId hid s)
      exact ⟨t, ht, hf, ha⟩
    | some i =>
      obtain ⟨t, ht, ha, hf⟩ := runCommand_unchanged h (ownSegQuery_id hid s)
      refine ⟨t, ht, hf, ?_⟩
      dsimp only
      unfold segQueryPayload at ha
      cases hr : s.store.seg i with
      | none => rw [hr] at ha; exact ha
      | some r =>
        rw [hr] at ha
        cases hs : r.source with
        | catalog image => simp only [hs] at ha ⊢; exact ha
        | host => simp only [hs] at ha ⊢; exact ha
  · have ho := ownSegRead_declared hp hr
    by_cases hbad : (byteAt p 3).toNat = 0 ∨ 64 < (byteAt p 3).toNat ∨
        (r.length + 255) / 256 * 256 < field p 1 2 + (byteAt p 3).toNat
    · simp only [if_pos hbad] at ho ⊢
      obtain ⟨t, ht, ha, hf⟩ := runCommand_unchanged h ho
      exact ⟨t, ht, hf, ha⟩
    simp only [if_neg hbad] at ho ⊢
    by_cases hres : r.state = .resident
    · simp only [if_pos hres] at ho ⊢
      obtain ⟨t, ht, ha, hf⟩ := runCommand_unchanged h ho
      exact ⟨t, ht, hf, ha⟩
    · simp only [if_neg hres] at ho ⊢
      obtain ⟨t, ht, ha, hf⟩ := runCommand_unchanged h ho
      exact ⟨t, ht, hf, ha⟩

end Sys2Proof.Machine
end

section
/-! PROOFS. Bytes in overlay memory, and the ends of a fill (R23, R32 to R34, R95, R96, R105). -/

namespace Sys2Proof.Machine

/-! ### Stored bytes read back (R23) -/

theorem blockKey_eq_some {blocks : List Block} {o k : Nat} :
    blockKey blocks o = some k ↔ ∃ b, blocks[o / 256]? = some b ∧ b.val * 256 + o % 256 = k := by
  simp [blockKey]

/-- A block list that reaches an offset gives it a key. -/
theorem blockKey_of_lt {blocks : List Block} {o : Nat} (h : o < blocks.length * 256) :
    ∃ k, blockKey blocks o = some k := by
  have hlt : o / 256 < blocks.length := by omega
  exact ⟨_, blockKey_eq_some.mpr ⟨blocks[o / 256], List.getElem?_eq_getElem hlt, rfl⟩⟩

/-- In a block list without repeats different offsets have different keys. -/
theorem blockKey_injective {blocks : List Block} (hn : blocks.Nodup) {o o' k : Nat}
    (h : blockKey blocks o = some k) (h' : blockKey blocks o' = some k) : o = o' := by
  obtain ⟨b, hb, hk⟩ := blockKey_eq_some.mp h
  obtain ⟨b', hb', hk'⟩ := blockKey_eq_some.mp h'
  have hbb : b = b' := Fin.ext (by omega)
  obtain ⟨hlt, hget⟩ := List.getElem?_eq_some_iff.mp hb
  obtain ⟨hlt', hget'⟩ := List.getElem?_eq_some_iff.mp hb'
  have hdiv : o / 256 = o' / 256 := (hn.getElem_inj_iff).mp (by rw [hget, hget', hbb])
  subst hbb
  omega

theorem overlayBytes_succ (sram : List Host.Cell) (blocks : List Block) (o len : Nat) :
    overlayBytes sram blocks o (len + 1) = overlayByte sram blocks o :: overlayBytes sram blocks (o + 1) len := by
  unfold overlayBytes
  rw [List.range_succ_eq_map, List.map_cons, List.map_map]
  congr 1
  exact List.map_congr_left fun i _ => by
    rw [Function.comp_apply, Nat.succ_eq_add_one, Nat.add_comm i 1, ← Nat.add_assoc]

/-- Stored bytes read back: no later byte of the run has the key of an earlier one. -/
theorem overlayBytes_overlayStore {blocks : List Block} (hn : blocks.Nodup) (data : List Byte) (o : Nat)
    {m : List Host.Cell} (hm : Memory.wf m) (hlen : o + data.length ≤ blocks.length * 256) :
    overlayBytes (overlayStore blocks data o m) blocks o data.length = data := by
  induction data generalizing o m with
  | nil => rfl
  | cons b bs ih =>
    rw [List.length_cons] at hlen ⊢
    obtain ⟨k, hk⟩ := blockKey_of_lt (blocks := blocks) (o := o) (by omega)
    have hstep : overlayStore blocks (b :: bs) o m = overlayStore blocks bs (o + 1) (Memory.write m k b) := by
      simp only [overlayStore, hk]
    have hwf := Memory.write_wf hm k b
    have hlater : ¬ KeysOf blocks (o + 1) bs.length k := by
      rintro ⟨j, -, hj⟩
      have := blockKey_injective hn hk hj
      omega
    rw [overlayBytes_succ, hstep, ih (o + 1) hwf (by omega)]
    congr 1
    simp only [overlayByte, hk]
    rw [overlayStore_read blocks bs (o + 1) hwf k hlater, Memory.read_write hm, if_pos rfl]

/-! ### A write under SHADOW (R33, R105) -/

theorem shadowWrite_resident {s : State} {h : Hit} {r : SegRecord} (hr : s.store.seg h.seg = some r)
    (hs : r.state = .resident) (addr : Nat) (data : List Byte) : shadowWrite addr data h s =
      { s.emit (.answer .wack) with store := s.store.overlayWrite h.seg r h.offset data } := by
  unfold shadowWrite; rw [hr]; exact if_pos hs

/-- Settles O13: the overlay write of the route, and the stored bytes that read back. -/
theorem writeShadowStored : Obligations.WriteShadowStored := by
  refine ⟨fun addr data s h r hl hrun hw hlook hp hr hs => ?_, fun blocks data o m hm hn hlen =>
    overlayBytes_overlayStore hn data o hm hlen⟩
  refine ⟨{ s.emit (.answer .wack) with store := s.store.overlayWrite h.seg r h.offset data }, ?_, rfl, rfl,
    fun hm k hk => overlayStore_read _ _ _ hm k hk, ?_, ?_, rfl, rfl, ?_⟩
  · rw [exec_write, presentWrite_whole hl, acceptWrite_passed hrun hw, hlook]
    dsimp only
    rw [routeWriteHit_shadow hp, shadowWrite_resident hr hs]
  · show Store.seg (Store.update _ _ _) _ = _
    rw [Store.seg_update_same]
    exact congrArg (Option.map _) hr
  · exact Store.update_sameOff _ h.seg _
  · intro p hp; cases p <;> simp_all [Part.same]

/-! ### The held reads of a segment leave the port (R69, R70) -/

theorem Port.dropHeld_held (p : Port) (i : SegId) :
    (p.dropHeld i).held = p.held.filter fun h => decide (h.seg ≠ i) :=
  List.filter_congr fun h _ => by by_cases hi : h.seg = i <;> simp [hi]

theorem Port.dropHeld_tags (p : Port) (i : SegId) :
    (p.dropHeld i).tags = p.tags.filter fun g => decide (g ∉ (p.heldFor i).map (·.tag)) :=
  List.filter_congr fun g _ => by
    by_cases hg : g ∈ (p.heldFor i).map (·.tag) <;> simp [hg]

/-! ### A fill that fails (R34, R96) -/

/-- The record of a segment whose fill has failed, and the others (R34). -/
theorem failFill_seg (i : SegId) (reason : FailReason) (s : State) (j : SegId) :
    (failFill i reason s).store.seg j = if j = i then (s.store.seg i).map fun r =>
        { r with state := .failed, blocks := [], lastFailure := some reason, origin := none, held := 0 }
      else s.store.seg j := by
  obtain ⟨hst, -⟩ := failFill_spec i reason s
  rw [hst, Store.seg_update]
  by_cases hj : j = i
  · rw [if_pos hj, if_pos hj, Store.failSegment, Store.seg_update_same, Store.seg_freeBlocks, if_pos rfl]
    cases s.store.seg i <;> rfl
  · rw [if_neg hj, if_neg hj, Store.failSegment, Store.seg_update, if_neg hj, Store.seg_freeBlocks, if_neg hj]

theorem failFill_free (i : SegId) (reason : FailReason) (s : State) :
    (failFill i reason s).store.free = s.store.free ++ s.store.blocksOf i := rfl

/-- A stopped timer's expiry changes nothing (log 2). -/
theorem execStartTimerExpiry_stopped {s : State} (h : ∀ i d, s.fill.engine ≠ .awaitHost i d) :
    execStartTimerExpiry s = .next s := by
  unfold execStartTimerExpiry
  split
  · exact absurd ‹_› (h _ _)
  all_goals rfl

theorem execGapTimerExpiry_stopped {s : State} (h : ∀ i o n c d, s.fill.engine ≠ .loadingHost i o n c d) :
    execGapTimerExpiry s = .next s := by
  unfold execGapTimerExpiry
  split
  · exact absurd ‹_› (h _ _ _ _ _)
  all_goals rfl

/-- Settles O27, from what a failing fill writes (`failFill_spec`, `failFill_seg`) and the two timers. -/
theorem fillFailure : Obligations.FillFailure := by
  refine ⟨?_, fun s i d he => ?_, fun s i o n c d he => ?_, fun s h => execStartTimerExpiry_stopped h,
    fun s h => execGapTimerExpiry_stopped h⟩
  · rintro i reason s _ r hr rfl
    refine ⟨?_, fun j hj => ?_, ?_, rfl, rfl, rfl, s.port.dropHeld_held i, s.port.dropHeld_tags i, rfl, rfl, rfl, rfl,
      rfl, (failFill_frame i reason s).mono (by simp)⟩
    · rw [failFill_seg, if_pos rfl, hr]; rfl
    · rw [failFill_seg, if_neg hj]
    · rw [failFill_free, Store.blocksOf_declared hr]
  · show execStartTimerExpiry s = _
    simp only [execStartTimerExpiry, he]
  · show execGapTimerExpiry s = _
    simp only [execGapTimerExpiry, he]

/-! ### A fill that is complete (R32, R95) -/

/-- The pad bytes of a verified fill (R32). -/
theorem Store.verify_sram {st : Store} {i : SegId} {r : SegRecord} (hr : st.seg i = some r) :
    (st.verify i).sram =
      overlayStore r.blocks (List.replicate (r.blocks.length * 256 - r.length) 0) r.length st.sram := by
  rw [← Store.blocksOf_declared hr, ← Store.lengthOf_declared hr]; rfl

theorem Store.verify_declared {st : Store} {i : SegId} {r : SegRecord} (hr : st.seg i = some r) :
    (st.verify i).seg i = some { r with
      state := .resident, origin := none, fills := min 65535 (r.fills + 1), held := 0 } := by
  rw [Store.verify_seg, if_pos rfl, hr]; rfl

/-- The held reads are answered from the verified overlay (R69). -/
theorem completeFill_outputs (i : SegId) (o : Origin) (s : State) :
    (completeFill i o s).outputs = s.outputs ++ (s.port.heldFor i).map fun h =>
      .data h.tag (overlayBytes (s.store.verify i).sram ((s.store.verify i).blocksOf i) h.offset h.len) := rfl

/-- Settles O28, from what a complete fill writes (`completeFill_spec`, `Store.verify_sram`). -/
theorem fillCompletion : Obligations.FillCompletion := by
  rintro i o s _ r hr rfl
  obtain ⟨hst, hport, hev, hfill⟩ := completeFill_spec i o s
  have hseg := Store.verify_declared hr
  have hsram := Store.verify_sram hr
  have hout := completeFill_outputs i o s
  rw [Store.blocksOf_declared hseg] at hout
  refine ⟨hst ▸ hseg, fun j hj => ?_, rfl, rfl, hst ▸ hsram, fun hm k hk => ?_, hout,
    hport ▸ s.port.dropHeld_held i, hport ▸ s.port.dropHeld_tags i, rfl, rfl, rfl, hev, hfill,
    (completeFill_frame i o s).mono (by simp)⟩
  · rw [hst, Store.verify_seg, if_neg hj]
  · rw [hst, hsram]
    exact overlayStore_read _ _ _ hm k (by rwa [List.length_replicate])

end Sys2Proof.Machine
end

section
/-! PROOFS. A catalog's reading, checks, application and response (R137 to R141). -/

namespace Sys2Proof.Machine

/-! ### Reading (R139) -/

theorem catalogArrived_header {s : State} {a : Nat} {bs : List Byte} (h : s.startup.catalog = some ⟨a, .header bs⟩)
    (data : List Byte) : catalogArrived data s =
      if (bs ++ data).length < 7 then readCatalog ⟨a + data.length, .header (bs ++ data)⟩ s
      else headerArrived (a + data.length) (bs ++ data) s := by
  unfold catalogArrived; rw [h]; rfl

theorem catalogArrived_descriptors {s : State} {a count : Nat} {hc c : BitVec 16} {bs : List Byte}
    (h : s.startup.catalog = some ⟨a, .descriptors count hc bs c⟩) (data : List Byte) : catalogArrived data s =
      if (bs ++ data).length < count * 10 then
        readCatalog ⟨a + data.length, .descriptors count hc (bs ++ data) (crc16Over c data)⟩ s
      else descriptorsArrived (a + data.length) count hc (bs ++ data) (crc16Over c data) s := by
  unfold catalogArrived; rw [h]; rfl

/-- A request runs to the window's end or to the end of the part being read (R139). -/
theorem windowPart_catalog (next missing : Nat) :
    windowPart next (next + missing) = min (32 - next % 32) missing := by
  unfold windowPart; rw [Nat.add_sub_cancel_left]; rfl

/-- The reading with its next request, as the loader takes or refuses it (R123, R139). -/
theorem readCatalog_spec {c : CatalogRead} {s u : State} {n : Nat}
    (hu : u = { s with startup := { s.startup with catalog := some c } })
    (hn : n = min (32 - c.next % 32) c.phase.missing) :
    (c.next + n ≤ s.memSize → s.ctl.link ≠ .stalled → readCatalog c s = { u with
      ctl := { s.ctl with loader := s.ctl.loader ++ [⟨.catalog, c.next, n, false, false⟩] } }) ∧
    (s.memSize < c.next + n → readCatalog c s = catalogEnd (.bad .range) u) ∧
    (c.next + n ≤ s.memSize → s.ctl.link = .stalled → readCatalog c s = catalogEnd .stalled u) := by
  have hsize : u.memSize = s.memSize := State.memSize_congr (by rw [hu])
  have hctl : u.ctl = s.ctl := by rw [hu]
  have hcat : u.startup.catalog = some c := by rw [hu]
  have hread : readCatalog c s = requestCatalog u := by rw [hu]; rfl
  rw [hread]
  unfold requestCatalog
  rw [hcat]
  dsimp only
  rw [windowPart_catalog, hsize, hctl, ← hn]
  rcases s.ctl.arrive_spec s.memSize .catalog c.next n with ⟨h, e⟩ | ⟨h, hl, e⟩ | ⟨h, hl, e⟩ <;> rw [e]
  · exact ⟨fun h' => absurd h (Nat.not_lt.mpr h'), fun _ => rfl, fun h' => absurd h (Nat.not_lt.mpr h')⟩
  · exact ⟨fun _ h' => absurd hl h', fun h' => absurd h' (Nat.not_lt.mpr h), fun _ _ => rfl⟩
  · exact ⟨fun _ _ => rfl, fun h' => absurd h' (Nat.not_lt.mpr h), fun _ h' => absurd h' hl⟩

/-! ### Checks (R137, R140) -/

/-- The little-endian fields of a descriptor's ten bytes (10.6). -/
theorem descriptor_bytes (x0 x1 x2 x3 x4 x5 x6 x7 x8 x9 : Byte) :
    descriptor [x0, x1, x2, x3, x4, x5, x6, x7, x8, x9] = {
      id := x0
      pinned := x1.getLsbD 0
      length := x2.toNat + 256 * x3.toNat + 65536 * x4.toNat
      image := x5.toNat + 256 * x6.toNat + 65536 * x7.toNat
      crc := BitVec.ofNat 16 (x8.toNat + 256 * x9.toNat) } := by
  simp [descriptor, byteAt, field, leValue]
  omega

theorem headerArrived_badMagic {bs : List Byte} (h : field bs 0 4 ≠ catalogMagic) (next : Nat) (s : State) :
    headerArrived next bs s = catalogEnd (.bad .badMagic) s := if_pos h

theorem headerArrived_badCount {bs : List Byte} (h : field bs 0 4 = catalogMagic)
    (hc : field bs 4 1 = 0 ∨ 62 < field bs 4 1) (next : Nat) (s : State) :
    headerArrived next bs s = catalogEnd (.bad .badCount) s := (if_neg (not_not.mpr h)).trans (if_pos hc)

theorem headerArrived_passed {bs : List Byte} (h : field bs 0 4 = catalogMagic) (h1 : 1 ≤ field bs 4 1)
    (h2 : field bs 4 1 ≤ 62) (next : Nat) (s : State) : headerArrived next bs s = readCatalog
      ⟨next, .descriptors (field bs 4 1) (BitVec.ofNat 16 (field bs 5 2)) [] crc16Init⟩ s :=
  (if_neg (not_not.mpr h)).trans (if_neg (by omega))

/-- Pieces of equal length put one after another are cut apart again. -/
theorem pieces_flatten {n : Nat} {ds : List (List Byte)} (h : ∀ d ∈ ds, d.length = n) :
    pieces n ds.length ds.flatten = ds := by
  induction ds with
  | nil => rfl
  | cons d ds ih =>
    have hd : d.length = n := h d (List.mem_cons_self ..)
    have ih := ih fun d hd => h d (List.mem_cons_of_mem _ hd)
    rw [List.length_cons, List.flatten_cons, pieces, List.take_left' hd, List.drop_left' hd, ih]

/-! ### Application (R141) -/

/-- The next event while a catalog is being applied: one descriptor, and the end of the application with the last. -/
theorem nextEvent_applying {s : State} {a m k : Nat} {d : List Byte} {ds : List (List Byte)}
    (h : s.startup.catalog = some ⟨a, .applying (d :: ds) m k⟩) :
    nextEvent s =
      let r := applyDescriptor (s, m, k) d
      if ds = [] then catalogEnd (.ok r.2.1 r.2.2) r.1
      else { r.1 with startup := { r.1.startup with catalog := some ⟨a, .applying ds r.2.1 r.2.2⟩ } } := by
  rw [← applyNext_cons h]
  rcases nextEvent_spec s with ⟨_, _, _, _, -, e⟩ | ⟨hno, -⟩
  · exact e
  · exact absurd h (hno _ _ _ _)

theorem State.setCatalog_frame (s : State) (c : Option CatalogRead) :
    SameBut [.startup] s { s with startup := { s.startup with catalog := c } } := by
  intro p hp; cases p <;> simp_all [Part.same]

/-- As many events as there are descriptors left end the application, every descriptor counted (R141). -/
theorem goOn_applying {ds : List (List Byte)} (hne : ds ≠ []) {s : State} {a m k : Nat}
    (h : s.startup.catalog = some ⟨a, .applying ds m k⟩) : ∃ (t : State) (m' k' : Nat),
      goOn ds.length s = catalogEnd (.ok m' k') t ∧ m' + k' = m + k + ds.length ∧
        SameBut [.store, .events, .startup] s t := by
  induction ds generalizing s m k with
  | nil => exact absurd rfl hne
  | cons d ds ih =>
    have hcount := applyDescriptor_count (s, m, k) d
    have hframe : SameBut [.store, .events, .startup] s (applyDescriptor (s, m, k) d).1 :=
      (applyDescriptor_frame (s, m, k) d).mono (by simp)
    have hnext := nextEvent_applying h
    by_cases hds : ds = []
    · subst hds
      exact ⟨(applyDescriptor (s, m, k) d).1, (applyDescriptor (s, m, k) d).2.1, (applyDescriptor (s, m, k) d).2.2,
        hnext, hcount, hframe⟩
    · rw [if_neg hds] at hnext
      obtain ⟨t, m', k', hgo, hsum, ht⟩ := ih hds (s := nextEvent s) (m := (applyDescriptor (s, m, k) d).2.1)
        (k := (applyDescriptor (s, m, k) d).2.2) (by rw [hnext])
      refine ⟨t, m', k', hgo, ?_, SameBut.trans ?_ ht⟩
      · rw [List.length_cons]; dsimp only at hcount; omega
      · rw [hnext]
        exact hframe.trans ((State.setCatalog_frame _ _).mono (by simp))

/-- A descriptor that names no segment or a length out of range is skipped (R141). -/
theorem applyDescriptor_bad {bs : List Byte} (h : segId? (descriptor bs).id.toNat = none ∨
    (descriptor bs).length = 0 ∨ 65536 < (descriptor bs).length) (s : State) (m k : Nat) :
    applyDescriptor (s, m, k) bs = (s.post (.catalogConflict (descriptor bs).id .badDescriptor), m, k + 1) := by
  unfold applyDescriptor
  dsimp only
  split
  · rfl
  · rename_i hid
    exact if_pos (h.resolve_left (by rw [hid]; nofun))

/-- A descriptor in range is applied to its segment: skipped where that is declared, else declared (R141). -/
theorem applyDescriptor_inRange {bs : List Byte} {i : SegId} (hid : segId? (descriptor bs).id.toNat = some i)
    (h1 : 0 < (descriptor bs).length) (h2 : (descriptor bs).length ≤ 65536) (s : State) (m k : Nat) :
    (∀ r, s.store.seg i = some r → applyDescriptor (s, m, k) bs =
      (s.post (.catalogConflict (descriptor bs).id .exists_), m, k + 1)) ∧
    (s.store.seg i = none → applyDescriptor (s, m, k) bs =
      ({ s with store := s.store.setSeg i (some (newRecord (.catalog (descriptor bs).image)
        (descriptor bs).length (descriptor bs).crc (descriptor bs).pinned)) }, m + 1, k)) := by
  have hrange : ¬ ((descriptor bs).length = 0 ∨ 65536 < (descriptor bs).length) := by omega
  unfold applyDescriptor
  simp only [hid, if_neg hrange]
  unfold Store.declareCatalog
  refine ⟨fun r hr => ?_, fun hr => ?_⟩ <;> rw [hr]

/-! ### The response (R139 to R141) -/

/-- What the end of a catalog's loading places in the buffer of CATALOG_LOAD, once start-up is over. -/
theorem respondLong_answered {s : State} {b : BufId} {f : Frame} {q : BitVec 8} {phase : Phase}
    (he : s.mgmt.executor = .busy b phase) (hb : s.mgmt.buf b = .executing f q) (st : Status) (p : List Byte) :
    Answered b st p s (s.respondLong phase st p) ∧ SameBut [.mgmt] s (s.respondLong phase st p) := by
  have hr : s.respondLong phase st p = s.respond b st p := by
    unfold State.respondLong; rw [he]; exact if_pos rfl
  rw [hr]
  exact ⟨⟨f, q, hb, Mgmt.respond_executing hb st p⟩, s.respond_frame b st p⟩

/-- The two responses that a catalog's own checks lead to (R140, R141). -/
theorem catalogEnd_answered {s : State} {b : BufId} {f : Frame} {q : BitVec 8} (hrun : s.startup.stage = .run)
    (he : s.mgmt.executor = .busy b .catalogLoad) (hb : s.mgmt.buf b = .executing f q) :
    (∀ m k, Answered b .ok [byte m, byte k] s (catalogEnd (.ok m k) s) ∧
      SameBut [.mgmt, .startup] s (catalogEnd (.ok m k) s)) ∧
    ∀ e, Answered b .badCatalog [e.code] s (catalogEnd (.bad e) s) ∧
      SameBut [.mgmt, .startup] s (catalogEnd (.bad e) s) := by
  have hstage : ¬ s.startup.stage = .catalog := by rw [hrun]; nofun
  have hresp := respondLong_answered (s := { s with startup := { s.startup with catalog := none } }) he hb
  have hframe : ∀ {t : State}, SameBut [.mgmt] { s with startup := { s.startup with catalog := none } } t →
      SameBut [.mgmt, .startup] s t := fun ht =>
    ((s.setCatalog_frame none).mono (by simp)).trans (ht.mono (by simp))
  refine ⟨fun m k => ?_, fun e => ?_⟩
  · rw [show catalogEnd (.ok m k) s = _ from if_neg hstage]
    exact ⟨(hresp _ _).1, hframe (hresp _ _).2⟩
  · rw [show catalogEnd (.bad e) s = _ from if_neg hstage]
    exact ⟨(hresp _ _).1, hframe (hresp _ _).2⟩

/-- Settles O43, clause by clause. -/
theorem catalogApplied : Obligations.CatalogApplied := by
  refine ⟨fun data s => ⟨fun a bs h => catalogArrived_header h data,
      fun a count hc bs c h => catalogArrived_descriptors h data⟩, ?_, rfl, descriptor_bytes,
    fun next bs s => ⟨fun h => headerArrived_badMagic h next s, fun h hc => headerArrived_badCount h hc next s,
      fun h h1 h2 => headerArrived_passed h h1 h2 next s⟩,
    fun next count h c bs s hne => if_neg hne, fun next ds c s hds => ?_, fun s next m k d ds h => ?_,
    fun s next ds h hne => ?_, fun s count => ⟨rfl, rfl, rfl, fun hno => ?_⟩, ?_,
    fun s b f q hrun he hb => catalogEnd_answered hrun he hb⟩
  · intro s u c n hn hu
    refine readCatalog_spec hu ?_
    rw [hn]; unfold CatalogPhase.missing; cases c.phase <;> rfl
  · unfold descriptorsArrived
    rw [if_pos rfl, show descriptorBytes = 10 from rfl, pieces_flatten hds]
  · exact ⟨_, _, _, rfl, applyDescriptor_count (s, m, k) d, nextEvent_applying h⟩
  · obtain ⟨t, m, k, hgo, hsum, ht⟩ := goOn_applying hne h
    exact ⟨t, m, k, hgo, by omega, ht⟩
  · rcases nextEvent_spec s with ⟨a, l, m, k, h, -⟩ | ⟨-, e⟩
    · exact absurd h (hno a l m k)
    · exact e
  · rintro s m k bs _ rfl
    refine ⟨fun h => applyDescriptor_bad h s m k, fun i hid h1 h2 => ?_⟩
    obtain ⟨hdeclared, hnew⟩ := applyDescriptor_inRange hid h1 h2 s m k
    exact ⟨hdeclared, fun hi => ⟨_, hnew hi, Store.seg_setSeg_same .., s.store.setSeg_sameOff i _, rfl, rfl, rfl,
      s.setStore_frame _⟩⟩

end Sys2Proof.Machine
end

section
/-! PROOFS. What the routes of a host read write: a read admitted, a read held, a fill requested (R59 to R61, R76). -/

namespace Sys2Proof.Machine

theorem State.admitRead_frame (s : State) (q : ReadRequest) : SameBut [.outputs, .port] s (s.admitRead q) := by
  intro p hp; cases p <;> simp_all [Part.same]

theorem State.holdRead_frame (s : State) (q : ReadRequest) (x : Hit) :
    SameBut [.outputs, .port, .store] s (s.holdRead q x) := by
  intro p hp; cases p <;> simp_all [Part.same]

theorem State.holdRead_seg {s : State} {x : Hit} {r : SegRecord} (hr : s.store.seg x.seg = some r)
    (q : ReadRequest) : (s.holdRead q x).store.seg x.seg = some { r with held := r.held + 1 } := by
  show (s.store.update _ _).seg _ = _
  rw [Store.seg_update_same, hr]; rfl

theorem State.holdRead_sameOff (s : State) (q : ReadRequest) (x : Hit) :
    s.store.SameOff x.seg (s.holdRead q x).store := s.store.update_sameOff x.seg _

theorem State.enqueueFill_frame (s : State) (i : SegId) : SameBut [.store, .fill] s (s.enqueueFill i) := by
  intro p hp; cases p <;> simp_all [Part.same]

theorem State.enqueueFill_seg {s : State} {i : SegId} {r : SegRecord} (hr : s.store.seg i = some r) :
    (s.enqueueFill i).store.seg i = some { r with state := .queued } := by
  rw [State.enqueueFill_store, Store.seg_update_same, hr]; rfl

theorem State.enqueueFill_sameOff (s : State) (i : SegId) : s.store.SameOff i (s.enqueueFill i).store :=
  s.store.update_sameOff i _

theorem State.requestFill_room {s : State} (h : s.fill.queue.length < 8) (i : SegId) :
    s.requestFill i = s.enqueueFill i := if_pos h

theorem State.requestFill_full {s : State} (h : ¬ s.fill.queue.length < 8) (i : SegId) :
    s.requestFill i = s := if_neg h

/-- Without room, in the table or for the fill that an ABSENT segment needs, nothing changes (R60). -/
theorem parkRead_full {q : ReadRequest} {x : Hit} {absent : Bool} {s : State}
    (h : 8 ≤ s.port.held.length ∨ (absent = true ∧ 8 ≤ s.fill.queue.length)) :
    parkRead q x absent s = s.emit (.answer .retry) := by
  unfold parkRead
  split
  · rfl
  · exact if_pos (h.resolve_left ‹_›)

theorem parkRead_room {q : ReadRequest} {x : Hit} {absent : Bool} {s : State}
    (h : ¬ (8 ≤ s.port.held.length ∨ (absent = true ∧ 8 ≤ s.fill.queue.length))) :
    parkRead q x absent s = if absent then (s.holdRead q x).enqueueFill x.seg else s.holdRead q x := by
  obtain ⟨h1, h2⟩ := not_or.mp h
  exact (if_neg h1).trans (if_neg h2)

end Sys2Proof.Machine
end

section
/-! PROOFS. The law of the host bus port: what it asks of the store, and what each change of the port asks for (R52,
R54, R67, R68, R72). -/

namespace Sys2Proof.Machine

/-! ### Held reads and the store (R68) -/

/-- A segment is declared and in a state in which reads may be held for it. -/
def Store.Holding (st : Store) (i : SegId) : Prop := ∃ r, st.seg i = some r ∧ r.state.holds

/-- A change of the store keeps every held count, and a segment with held reads stays in a state that may have them:
all that the law of the port asks of the store. -/
structure Store.KeepsHeld (st st' : Store) : Prop where
  counts : ∀ i, st'.heldOf i = st.heldOf i
  holding : ∀ i, 0 < st.heldOf i → st.Holding i → st'.Holding i

theorem Store.heldOf_congr {st st' : Store} {i : SegId} (h : st'.seg i = st.seg i) :
    st'.heldOf i = st.heldOf i := by
  unfold Store.heldOf; rw [h]

theorem Store.heldOf_declared {st : Store} {i : SegId} {r : SegRecord} (hr : st.seg i = some r) :
    st.heldOf i = r.held := by
  unfold Store.heldOf; rw [hr]

theorem Store.heldOf_undeclared {st : Store} {i : SegId} (h : st.seg i = none) : st.heldOf i = 0 := by
  unfold Store.heldOf; rw [h]

theorem Store.Holding.congr {st st' : Store} {i : SegId} (h : st'.seg i = st.seg i) :
    st'.Holding i ↔ st.Holding i := by
  unfold Store.Holding; rw [h]

/-- In ABSENT, RESIDENT and FAILED no reads are held. -/
theorem Store.InState.not_holding {st : Store} {i : SegId} {g : SegState} (h : st.InState i g) (hg : ¬ g.holds) :
    ¬ st.Holding i := by
  rintro ⟨r, hr, hs⟩
  exact hg (h.eq ⟨r, hr, rfl⟩ ▸ hs)

theorem SegState.not_holds_absent : ¬ SegState.absent.holds := by unfold SegState.holds; simp
theorem SegState.not_holds_resident : ¬ SegState.resident.holds := by unfold SegState.holds; simp
theorem SegState.not_holds_failed : ¬ SegState.failed.holds := by unfold SegState.holds; simp

theorem Store.KeepsHeld.of_seg_eq {st st' : Store} (h : ∀ i, st'.seg i = st.seg i) : st.KeepsHeld st' :=
  ⟨fun i => Store.heldOf_congr (h i), fun i _ => (Store.Holding.congr (h i)).mpr⟩

theorem Store.KeepsHeld.refl (st : Store) : st.KeepsHeld st := .of_seg_eq fun _ => rfl

theorem Store.KeepsHeld.trans {st st' st'' : Store} (h : st.KeepsHeld st') (h' : st'.KeepsHeld st'') :
    st.KeepsHeld st'' :=
  ⟨fun i => (h'.counts i).trans (h.counts i),
    fun i hi hh => h'.holding i (h.counts i ▸ hi) (h.holding i hi hh)⟩

/-- A change of one segment. -/
theorem Store.KeepsHeld.of_sameOff {st st' : Store} {i : SegId} (hs : st.SameOff i st')
    (hc : st'.heldOf i = st.heldOf i) (hh : 0 < st.heldOf i → st.Holding i → st'.Holding i) : st.KeepsHeld st' where
  counts j := by
    by_cases hj : j = i
    · rw [hj]; exact hc
    · exact Store.heldOf_congr (hs j hj)
  holding j := by
    by_cases hj : j = i
    · rw [hj]; exact hh
    · exact fun _ => (Store.Holding.congr (hs j hj)).mpr

/-- A record changed but for its held count, in a state without held reads only where it had none. -/
theorem Store.KeepsHeld.update (st : Store) (i : SegId) {f : SegRecord → SegRecord}
    (hf : ∀ r, (f r).held = r.held)
    (hs : ∀ r, st.seg i = some r → 0 < r.held → r.state.holds → (f r).state.holds) :
    st.KeepsHeld (st.update i f) := by
  refine .of_sameOff (st.update_sameOff i f) ?_ fun hi ⟨r, hr, hh⟩ => ⟨f r, by simp [hr], hs r hr ?_ hh⟩
  · cases hr : st.seg i <;> simp [Store.heldOf, hr, hf]
  · rwa [Store.heldOf_declared hr] at hi

theorem Store.freeBlocks_keepsHeld (st : Store) (i : SegId) : st.KeepsHeld (st.freeBlocks i) :=
  Store.KeepsHeld.trans (st' := { st with free := st.free ++ st.blocksOf i }) (.of_seg_eq fun _ => rfl)
    (.update (f := fun r => { r with blocks := [] }) _ i (fun _ => rfl) fun _ _ _ h => h)

theorem Store.vacate_keepsHeld (st : Store) (i : SegId) : st.KeepsHeld (st.vacate i) :=
  (st.freeBlocks_keepsHeld i).trans (.of_seg_eq fun _ => rfl)

theorem Store.evict_keepsHeld {st : Store} {i : SegId} (hi : ¬ st.Holding i) : st.KeepsHeld (st.evict i) := by
  refine .of_sameOff (fun j hj => st.evict_seg_other hj) ?_ fun _ h => absurd h hi
  cases hr : st.seg i <;> simp [Store.heldOf, Store.evict_seg_same, hr]

/-- An eviction makes no segment one that reads may be held for. -/
theorem Store.evict_not_holding {st : Store} {i j : SegId} (hj : ¬ st.Holding j) : ¬ (st.evict i).Holding j := by
  by_cases h : j = i
  · rintro ⟨r, hr, hs⟩
    rw [h, st.evict_seg_same, Option.map_eq_some_iff] at hr
    obtain ⟨r0, -, rfl⟩ := hr
    exact SegState.not_holds_absent hs
  · rwa [Store.Holding.congr (st.evict_seg_other h)]

theorem Store.evictUntil_keepsHeld (n : Nat) (cause : SegId) {is : List SegId} {st : Store}
    (his : ∀ j ∈ is, ¬ st.Holding j) : st.KeepsHeld (Store.evictUntil n cause is st).1 := by
  induction is generalizing st with
  | nil => exact .refl st
  | cons i is ih =>
    simp only [Store.evictUntil]
    split
    · exact .refl st
    · exact (Store.evict_keepsHeld (his i (List.mem_cons_self ..))).trans
        (ih fun j hj => Store.evict_not_holding (his j (List.mem_cons_of_mem i hj)))

/-- An allocation evicts RESIDENT segments alone (R37). -/
theorem Store.allocate_keepsHeld {st st' : Store} {n : Nat} {cause : SegId} {bs : List Block} {evs : List Event}
    (h : st.allocate n cause = some (bs, st', evs)) : st.KeepsHeld st' := by
  obtain ⟨-, st1, he, -, rfl⟩ := Store.allocate_some h
  have h1 : st.KeepsHeld (Store.evictUntil n cause st.candidates st).1 :=
    Store.evictUntil_keepsHeld n cause fun j hj =>
      (Store.candidates_resident hj).not_holding SegState.not_holds_resident
  rw [he] at h1
  exact h1.trans (.of_seg_eq fun _ => rfl)

/-- A segment declared anew has no held reads, as it had none before. -/
theorem Store.declare_keepsHeld {st : Store} {i : SegId} (hi : st.seg i = none) {r : SegRecord} (hr : r.held = 0) :
    st.KeepsHeld (st.setSeg i (some r)) := by
  have h0 : st.heldOf i = 0 := Store.heldOf_undeclared hi
  refine .of_sameOff (st.setSeg_sameOff i _) ?_ fun h => absurd h (by rw [h0]; exact Nat.lt_irrefl 0)
  rw [Store.heldOf_declared (st.seg_setSeg_same i _), hr, h0]

/-- A segment released has no held reads (R44). -/
theorem Store.remove_keepsHeld {st : Store} {i : SegId} (hi : st.heldOf i = 0) : st.KeepsHeld (st.setSeg i none) := by
  refine .of_sameOff (st.setSeg_sameOff i _) ?_ fun h => absurd h (by rw [hi]; exact Nat.lt_irrefl 0)
  rw [Store.heldOf_undeclared (st.seg_setSeg_same i none), hi]

/-! ### Tags (R52) -/

/-- Tags freed leave the other outstanding ones. -/
theorem freeTags_perm {tags freed rest : List Tag} (hn : tags.Nodup) (h : tags.Perm (freed ++ rest)) :
    (freeTags tags freed).Perm rest := by
  obtain ⟨-, -, hdisj⟩ := List.nodup_append.mp (h.nodup_iff.mp hn)
  have hfreed : freed.filter (fun t => !freed.contains t) = [] :=
    List.filter_eq_nil_iff.mpr fun t ht => by simp [ht]
  have hrest : rest.filter (fun t => !freed.contains t) = rest :=
    List.filter_eq_self.mpr fun t ht => by simpa using fun hf => hdisj t hf t ht rfl
  calc (freeTags tags freed).Perm ((freed ++ rest).filter fun t => !freed.contains t) := h.filter _
    _ = rest := by rw [List.filter_append, hfreed, hrest, List.nil_append]

theorem freeTags_nodup {tags : List Tag} (h : tags.Nodup) (freed : List Tag) : (freeTags tags freed).Nodup :=
  h.filter _

theorem not_mem_freeTags {tags : List Tag} {t : Tag} (h : t ∉ tags) (freed : List Tag) : t ∉ freeTags tags freed :=
  fun hm => h (List.mem_filter.mp hm).1

/-! ### The held reads of a segment -/

theorem Port.mem_heldFor {p : Port} {i : SegId} {h : HeldRead} : h ∈ p.heldFor i ↔ h ∈ p.held ∧ h.seg = i := by
  simp [Port.heldFor]

theorem Port.heldFor_dropHeld_same (p : Port) (i : SegId) : (p.dropHeld i).heldFor i = [] :=
  List.filter_eq_nil_iff.mpr fun h hh => by simpa using (List.mem_filter.mp hh).2

theorem Port.heldFor_dropHeld_other (p : Port) {i j : SegId} (h : j ≠ i) :
    (p.dropHeld i).heldFor j = p.heldFor j := by
  unfold Port.heldFor Port.dropHeld
  rw [List.filter_filter]
  refine List.filter_congr fun x _ => ?_
  by_cases hx : x.seg = j <;> simp [hx, h]

/-- The held reads are those of a segment and those that stay as it drops its own. -/
theorem Port.held_perm (p : Port) (i : SegId) : p.held.Perm (p.heldFor i ++ (p.dropHeld i).held) :=
  (List.filter_append_perm _ _).symm

/-! ### Each change of the port keeps its law -/

/-- A held read stands in its segment's count. -/
theorem PortLaw.heldOf_pos {s : State} (h : PortLaw s) {x : HeldRead} (hx : x ∈ s.port.held) :
    0 < s.store.heldOf x.seg := by
  rw [h.counts]
  exact List.length_pos_of_mem (Port.mem_heldFor.mpr ⟨hx, rfl⟩)

/-- The store changes, the port does not. -/
theorem PortLaw.store {s t : State} (h : PortLaw s) (hp : t.port = s.port) (hs : s.store.KeepsHeld t.store) :
    PortLaw t where
  distinct := by rw [hp]; exact h.distinct
  outstanding := by rw [hp]; exact h.outstanding
  held := by rw [hp]; exact h.held
  names x hx := by rw [hp] at hx; exact hs.holding x.seg (h.heldOf_pos hx) (h.names x hx)
  counts i := by rw [hp, hs.counts]; exact h.counts i
  waits := by rw [hp]; exact h.waits

/-- The reads held for a segment are answered and its held count becomes 0 (R69, R70). -/
theorem PortLaw.dropHeld {s t : State} {i : SegId} (h : PortLaw s) (hp : t.port = s.port.dropHeld i)
    (hs : s.store.SameOff i t.store) (hi : t.store.heldOf i = 0) : PortLaw t where
  distinct := by rw [hp]; exact freeTags_nodup h.distinct _
  outstanding := by
    rw [hp]
    refine freeTags_perm h.distinct (h.outstanding.trans ?_)
    rw [← List.append_assoc, ← List.map_append]
    exact ((s.port.held_perm i).map _).append_right _
  held := by rw [hp]; exact (List.length_filter_le _ _).trans h.held
  names x hx := by
    rw [hp, Port.dropHeld_held, List.mem_filter, decide_eq_true_eq] at hx
    obtain ⟨hx, hxi⟩ := hx
    exact (Store.Holding.congr (hs x.seg hxi)).mpr (h.names x hx)
  counts j := by
    rw [hp]
    by_cases hj : j = i
    · rw [hj, hi, Port.heldFor_dropHeld_same]; rfl
    · rw [Port.heldFor_dropHeld_other _ hj, Store.heldOf_congr (hs j hj)]; exact h.counts j
  waits q x hq := by rw [hp] at hq ⊢; exact not_mem_freeTags (h.waits q x hq) _

/-- The read queue changes, the tags of the entries that leave it are freed and nothing else of the port changes
(R65, R66). -/
theorem PortLaw.readQueue {s t : State} (h : PortLaw s) (hs : t.store = s.store) {queue : List ReadEntry}
    {freed : List Tag} (hp : t.port = { s.port with readQueue := queue, tags := freeTags s.port.tags freed })
    (hq : (s.port.readQueue.map (·.tag)).Perm (freed ++ queue.map (·.tag))) : PortLaw t where
  distinct := by rw [hp]; exact freeTags_nodup h.distinct _
  outstanding := by
    rw [hp]
    refine freeTags_perm h.distinct (h.outstanding.trans ((hq.append_left _).trans ?_))
    rw [← List.append_assoc, ← List.append_assoc]
    exact List.perm_append_comm.append_right _
  held := by rw [hp]; exact h.held
  names x hx := by rw [hp] at hx; rw [hs]; exact h.names x hx
  counts i := by rw [hp, hs]; exact h.counts i
  waits q x hl := by rw [hp] at hl ⊢; exact not_mem_freeTags (h.waits q x hl) _

/-- A presentation begins to wait, or waits no longer (R54). -/
theorem PortLaw.setLooked {s : State} (h : PortLaw s) {p : Option Looked}
    (hp : ∀ q x, p = some (.read q x) → q.tag ∉ s.port.tags) : PortLaw (s.setLooked p) where
  distinct := h.distinct
  outstanding := h.outstanding
  held := h.held
  names := h.names
  counts := h.counts
  waits := hp

/-- A read that may be accepted: no presentation waits, and its tag is not outstanding (R51, R54). -/
def State.Accepts (s : State) (q : ReadRequest) : Prop := s.port.looked = none ∧ q.tag ∉ s.port.tags

/-- A read joins the read queue (R59, R64). -/
theorem PortLaw.admitRead {s : State} (h : PortLaw s) {q : ReadRequest} (hq : s.Accepts q) :
    PortLaw (s.admitRead q) where
  distinct := List.nodup_cons.mpr ⟨hq.2, h.distinct⟩
  outstanding := by
    refine (h.outstanding.cons q.tag).trans ?_
    show List.Perm _ (_ ++ (s.port.readQueue ++ [_]).map _)
    rw [List.map_append, ← List.append_assoc]
    exact (List.perm_append_singleton _ _).symm
  held := h.held
  names := h.names
  counts := h.counts
  waits _ _ hl := nomatch hq.1.symm.trans hl

/-- A read is parked for a segment that may have held reads after the event (R60, R67, R68). -/
theorem PortLaw.holdRead {s t : State} (h : PortLaw s) {q : ReadRequest} (hq : s.Accepts q) {x : Hit}
    (hp : t.port = (s.holdRead q x).port) (hroom : s.port.held.length < 8) (hs : s.store.SameOff x.seg t.store)
    (hc : t.store.heldOf x.seg = s.store.heldOf x.seg + 1) (hh : t.store.Holding x.seg) : PortLaw t where
  distinct := by rw [hp]; exact List.nodup_cons.mpr ⟨hq.2, h.distinct⟩
  outstanding := by
    rw [hp]
    refine (h.outstanding.cons q.tag).trans ?_
    show List.Perm _ ((s.port.held ++ [_]).map _ ++ _)
    rw [List.map_append, List.append_assoc]
    exact List.perm_middle.symm
  held := by rw [hp]; show (s.port.held ++ [_]).length ≤ 8; rw [List.length_append]; exact hroom
  names y hy := by
    by_cases hys : y.seg = x.seg
    · rw [hys]; exact hh
    · rw [hp] at hy
      rcases List.mem_append.mp hy with hy | hy
      · exact (Store.Holding.congr (hs y.seg hys)).mpr (h.names y hy)
      · exact absurd (by rw [List.mem_singleton.mp hy]) hys
  counts i := by
    have hf : t.port.heldFor i = s.port.heldFor i ++
        [⟨q.tag, q.addr, q.len, x.seg, x.offset, s.port.arrival⟩].filter (·.seg == i) := by
      rw [hp]; exact List.filter_append ..
    rw [hf, List.length_append, ← h.counts]
    by_cases hi : i = x.seg
    · simp [hi, hc]
    · rw [Store.heldOf_congr (hs i hi)]; simp [Ne.symm hi]
  waits _ _ hl := by rw [hp] at hl; exact nomatch hq.1.symm.trans hl

end Sys2Proof.Machine
end

section
/-! PROOFS. Every command keeps the law of the host bus port: one lemma per operation, then one per command. -/

namespace Sys2Proof.Machine

/-! ### The law across an event -/

/-- An event keeps the law of the host bus port. -/
structure KeepsPortLaw (s t : State) : Prop where
  law : PortLaw s → PortLaw t

theorem KeepsPortLaw.refl (s : State) : KeepsPortLaw s s := ⟨id⟩

theorem KeepsPortLaw.trans {s t u : State} (h : KeepsPortLaw s t) (h' : KeepsPortLaw t u) : KeepsPortLaw s u :=
  ⟨h'.law ∘ h.law⟩

theorem KeepsPortLaw.of_store {s t : State} (hp : t.port = s.port) (hs : s.store.KeepsHeld t.store) :
    KeepsPortLaw s t := ⟨fun h => h.store hp hs⟩

theorem KeepsPortLaw.of_same {s t : State} (hp : t.port = s.port) (hs : t.store = s.store) : KeepsPortLaw s t :=
  .of_store hp (hs ▸ .refl _)

/-- What comes after an event that leaves the port and the store alone. -/
theorem KeepsPortLaw.after {s s' t : State} (h : KeepsPortLaw s' t) (hp : s'.port = s.port)
    (hs : s'.store = s.store) : KeepsPortLaw s t := (KeepsPortLaw.of_same hp hs).trans h

theorem KeepsPortLaw.of_frame {ps : List Part} {s t : State} (h : SameBut ps s t) (hp : .port ∉ ps)
    (hs : .store ∉ ps) : KeepsPortLaw s t := .of_same (h .port hp) (h .store hs)

/-! ### Host presentations -/

theorem enqueueFill_keepsPortLaw (s : State) (i : SegId) : KeepsPortLaw s (s.enqueueFill i) :=
  .of_store rfl (.update s.store i (fun _ => rfl) fun _ _ _ _ => .inl rfl)

theorem requestFill_keepsPortLaw (s : State) (i : SegId) : KeepsPortLaw s (s.requestFill i) := by
  unfold State.requestFill
  split
  · exact enqueueFill_keepsPortLaw s i
  · exact .refl s

theorem readDownstream_keepsPortLaw {q : ReadRequest} {s : State} (hq : s.Accepts q) (seg request : Option SegId) :
    KeepsPortLaw s (readDownstream q seg request s) := by
  have hadmit : KeepsPortLaw s (s.admitRead q) := ⟨fun h => h.admitRead hq⟩
  unfold readDownstream
  split
  · exact .of_same rfl rfl
  · split
    · exact .of_same rfl rfl
    · split
      · exact hadmit.trans (requestFill_keepsPortLaw ..)
      · exact hadmit

/-- Where the segment may not have held reads, as an ABSENT one may not, the same event queues it (R60). -/
theorem parkRead_keepsPortLaw {q : ReadRequest} {s : State} (hq : s.Accepts q) {x : Hit} {r : SegRecord}
    (hr : s.store.seg x.seg = some r) {absent : Bool} (ha : absent = false → r.state.holds) :
    KeepsPortLaw s (parkRead q x absent s) := by
  have hc := Store.heldOf_declared hr
  have hheld := State.holdRead_seg hr q
  have hoff := s.holdRead_sameOff q x
  by_cases hfull : 8 ≤ s.port.held.length ∨ (absent = true ∧ 8 ≤ s.fill.queue.length)
  · rw [parkRead_full hfull]; exact .of_same rfl rfl
  · have hroom : s.port.held.length < 8 := Nat.lt_of_not_le (not_or.mp hfull).1
    rw [parkRead_room hfull]
    cases absent with
    | true =>
      have hqueued := State.enqueueFill_seg hheld
      exact ⟨fun h => h.holdRead hq rfl hroom (hoff.trans (State.enqueueFill_sameOff _ x.seg))
        ((Store.heldOf_declared hqueued).trans (by rw [hc])) ⟨_, hqueued, .inl rfl⟩⟩
    | false =>
      exact ⟨fun h => h.holdRead hq rfl hroom hoff ((Store.heldOf_declared hheld).trans (by rw [hc]))
        ⟨_, hheld, ha rfl⟩⟩

theorem routeHit_keepsPortLaw {q : ReadRequest} {s : State} (hq : s.Accepts q) (x : Hit) :
    KeepsPortLaw s (routeHit q x s) := by
  unfold routeHit
  split
  · exact readDownstream_keepsPortLaw hq ..
  · rename_i r hr
    split
    · exact .of_store rfl (.of_seg_eq fun _ => rfl)
    · exact parkRead_keepsPortLaw hq hr nofun
    · exact .of_same rfl rfl
    · rename_i hres habs hfail
      refine parkRead_keepsPortLaw hq hr fun _ => ?_
      unfold SegState.holds
      cases hs : r.state <;> simp_all
    · exact readDownstream_keepsPortLaw hq ..
    · exact readDownstream_keepsPortLaw hq ..
    · exact readDownstream_keepsPortLaw hq ..
    · exact .of_same rfl rfl

theorem acceptRead_keepsPortLaw {q : ReadRequest} {onHit : Hit → State → State} {s : State}
    (hl : s.port.looked = none) (hh : ∀ x, s.Accepts q → KeepsPortLaw s (onHit x s)) :
    KeepsPortLaw s (acceptRead q onHit s) := by
  unfold acceptRead
  split
  · exact .of_same rfl rfl
  · split
    · exact .of_same rfl rfl
    · split
      · exact .of_same rfl rfl
      · split
        · exact readDownstream_keepsPortLaw ⟨hl, ‹_›⟩ ..
        · exact hh _ ⟨hl, ‹_›⟩

theorem setLooked_keepsPortLaw {s : State} {p : Option Looked}
    (hp : ∀ q x, p = some (.read q x) → q.tag ∉ s.port.tags) : KeepsPortLaw s (s.setLooked p) :=
  ⟨fun h => h.setLooked hp⟩

/-- The tag of a read that waits is still not outstanding at its enquiry (R54). -/
theorem presentRead_keepsPortLaw (q : ReadRequest) (part : PresentPart) (s : State) :
    KeepsPortLaw s (presentRead q part s) := by
  rcases presentRead_spec q part s with ⟨-, hl, e⟩ | ⟨-, hl, e⟩ | ⟨x, -, hl, e⟩ | e <;> rw [e]
  · exact acceptRead_keepsPortLaw hl fun x hq => routeHit_keepsPortLaw hq x
  · exact acceptRead_keepsPortLaw hl fun x hq => setLooked_keepsPortLaw fun q' _ e => by cases e; exact hq.2
  · exact ⟨fun h => (routeHit_keepsPortLaw (s := s.setLooked none) ⟨rfl, h.waits q x hl⟩ x).law
      (h.setLooked nofun)⟩
  · exact .refl s

theorem admitWrite_keepsPortLaw (addr : Nat) (data : List Byte) (seg : Option SegId) (s : State) :
    KeepsPortLaw s (admitWrite addr data seg s) := by
  unfold admitWrite
  split
  · exact .of_same rfl rfl
  · split
    · exact .of_same rfl rfl
    · split <;> exact .of_same rfl rfl

theorem Store.overlayWrite_keepsHeld (st : Store) (i : SegId) (r : SegRecord) (o : Nat) (data : List Byte) :
    st.KeepsHeld (st.overlayWrite i r o data) :=
  Store.KeepsHeld.trans (st' := { st with sram := overlayStore r.blocks data o st.sram }) (.of_seg_eq fun _ => rfl)
    (Store.KeepsHeld.trans (.update (f := fun r => { r with dirty := true }) _ i (fun _ => rfl) fun _ _ _ h => h)
      (.of_seg_eq fun _ => rfl))

theorem routeWriteHit_keepsPortLaw (addr : Nat) (data : List Byte) (x : Hit) (s : State) :
    KeepsPortLaw s (routeWriteHit addr data x s) := by
  unfold routeWriteHit
  split
  · exact .of_store rfl (.update s.store x.seg (fun _ => rfl) fun _ _ _ h => h)
  · exact admitWrite_keepsPortLaw ..
  · unfold shadowWrite
    split
    · split
      · exact .of_store rfl (s.store.overlayWrite_keepsHeld ..)
      · exact .of_same rfl rfl
    · exact .of_same rfl rfl
  · exact .of_same rfl rfl

theorem lookWriteHit_keepsPortLaw (addr : Nat) (data : List Byte) (x : Hit) (s : State) :
    KeepsPortLaw s (lookWriteHit addr data x s) := by
  unfold lookWriteHit
  split
  · exact setLooked_keepsPortLaw nofun
  · exact routeWriteHit_keepsPortLaw ..

theorem acceptWrite_keepsPortLaw (addr : Nat) (data : List Byte) {onHit : Hit → State → State} {s : State}
    (hh : ∀ x, KeepsPortLaw s (onHit x s)) : KeepsPortLaw s (acceptWrite addr data onHit s) := by
  unfold acceptWrite
  split
  · exact .of_same rfl rfl
  · split
    · exact .of_same rfl rfl
    · split
      · exact admitWrite_keepsPortLaw ..
      · exact hh _

theorem presentWrite_keepsPortLaw (addr : Nat) (data : List Byte) (part : PresentPart) (s : State) :
    KeepsPortLaw s (presentWrite addr data part s) := by
  rcases presentWrite_spec addr data part s with ⟨-, -, e⟩ | ⟨-, -, e⟩ | ⟨x, -, -, e⟩ | e <;> rw [e]
  · exact acceptWrite_keepsPortLaw addr data fun x => routeWriteHit_keepsPortLaw ..
  · exact acceptWrite_keepsPortLaw addr data fun x => lookWriteHit_keepsPortLaw ..
  · exact (setLooked_keepsPortLaw (p := none) nofun).trans (routeWriteHit_keepsPortLaw ..)
  · exact .refl s

/-! ### Fills -/

theorem failFill_keepsPortLaw (i : SegId) (reason : FailReason) (s : State) :
    KeepsPortLaw s (failFill i reason s) where
  law h := by
    obtain ⟨-, hp, -⟩ := failFill_spec i reason s
    refine h.dropHeld hp (fun j hj => (failFill_seg i reason s j).trans (if_neg hj)) ?_
    have hi := failFill_seg i reason s i
    rw [if_pos rfl] at hi
    cases hr : s.store.seg i <;> simp [Store.heldOf, hi, hr]

theorem completeFill_keepsPortLaw (i : SegId) (origin : Origin) (s : State) :
    KeepsPortLaw s (completeFill i origin s) where
  law h := by
    obtain ⟨hs, hp, -⟩ := completeFill_spec i origin s
    refine h.dropHeld hp (fun j hj => hs ▸ (s.store.verify_seg i j).trans (if_neg hj)) ?_
    have hi := s.store.verify_seg i i
    rw [if_pos rfl] at hi
    cases hr : s.store.seg i <;> simp [Store.heldOf, hs, hi, hr]

theorem Store.undoFill_seg (st : Store) (i : SegId) (prior : Prior) (j : SegId) : (st.undoFill i prior).seg j =
    if j = i then (st.seg i).map fun r => { r with state := prior.state, blocks := [], origin := none }
    else st.seg j := by
  unfold Store.undoFill
  rw [Store.seg_update]
  by_cases hj : j = i
  · rw [if_pos hj, if_pos hj, Store.seg_freeBlocks, if_pos rfl]
    cases st.seg i <;> rfl
  · rw [if_neg hj, if_neg hj, Store.seg_freeBlocks, if_neg hj]

theorem Store.undoFill_sameOff (st : Store) (i : SegId) (prior : Prior) : st.SameOff i (st.undoFill i prior) :=
  fun j hj => (st.undoFill_seg i prior j).trans (if_neg hj)

theorem Store.undoFill_heldOf (st : Store) (i : SegId) (prior : Prior) :
    (st.undoFill i prior).heldOf i = st.heldOf i := by
  cases hr : st.seg i <;> simp [Store.heldOf, Store.undoFill_seg, hr]

/-- A direct fill undone leaves a segment without held reads, queues it, or has its held reads answered (R98). -/
theorem undoFill_keepsPortLaw (i : SegId) (prior : Prior) (s : State) : KeepsPortLaw s (undoFill i prior s).1 := by
  have hoff := s.store.undoFill_sameOff i prior
  have hheld := s.store.undoFill_heldOf i prior
  unfold undoFill
  dsimp only
  split
  · rename_i h0
    exact .of_store rfl (.of_sameOff hoff hheld fun h => absurd h (by rw [h0]; exact Nat.lt_irrefl 0))
  · split
    · refine .of_store rfl (.of_sameOff (hoff.trans (Store.update_sameOff _ i _)) ?_ fun _ ⟨r, hr, _⟩ => ?_)
      · have hq : (s.store.undoFill i prior).KeepsHeld
            ((s.store.undoFill i prior).update i fun r => { r with state := .queued }) :=
          .update _ i (fun _ => rfl) fun _ _ _ _ => .inl rfl
        exact (hq.counts i).trans hheld
      · refine ⟨{ r with state := .queued, blocks := [], origin := none }, ?_, .inl rfl⟩
        show ((s.store.undoFill i prior).update i _).seg i = _
        rw [Store.seg_update_same, Store.undoFill_seg, if_pos rfl, hr]; rfl
    · refine ⟨fun h => ?_⟩
      refine h.dropHeld rfl (hoff.trans (Store.update_sameOff _ i _)) ?_
      show ((s.store.undoFill i prior).update i _).heldOf i = 0
      cases hr : (s.store.undoFill i prior).seg i <;> simp [Store.heldOf, hr]

theorem requestChunk_frame (s : State) : SameBut [.ctl] s s.requestChunk := by
  intro p hp
  unfold State.requestChunk
  split <;> cases p <;> simp_all [Part.same]

theorem requestChunk_keepsPortLaw (s : State) : KeepsPortLaw s s.requestChunk :=
  .of_frame (requestChunk_frame s) (by decide) (by decide)

theorem Store.filling_keepsHeld {st st' : Store} {n : Nat} {i : SegId} {bs : List Block} {evs : List Event}
    (h : st.allocate n i = some (bs, st', evs)) (origin : Origin) :
    st.KeepsHeld (st'.update i (·.filling bs origin)) :=
  (Store.allocate_keepsHeld h).trans (.update _ i (fun _ => rfl) fun _ _ _ _ => .inr (.inr rfl))

theorem startCatalogFill_keepsPortLaw (i : SegId) (r : SegRecord) (image : Nat) (origin : Origin) (s : State) :
    KeepsPortLaw s (startCatalogFill i r image origin s) := by
  unfold startCatalogFill
  split
  · exact failFill_keepsPortLaw ..
  · split
    · exact failFill_keepsPortLaw ..
    · split
      · exact failFill_keepsPortLaw ..
      · refine KeepsPortLaw.trans ?_ (requestChunk_keepsPortLaw _)
        exact .of_store rfl (Store.filling_keepsHeld ‹_› origin)

theorem awaitHost_keepsPortLaw (i : SegId) (r : SegRecord) (s : State) : KeepsPortLaw s (awaitHost i r s) :=
  .of_store rfl (.update s.store i (fun _ => rfl) fun _ _ _ _ => .inr (.inl rfl))

theorem takeHead_keepsPortLaw (s : State) : KeepsPortLaw s (takeHead s) := by
  unfold takeHead
  split
  · dsimp only
    split
    · split
      · exact (awaitHost_keepsPortLaw ..).after rfl rfl
      · exact (startCatalogFill_keepsPortLaw ..).after rfl rfl
    · exact .of_same rfl rfl
  · exact .refl s

theorem beginHostFill_keepsPortLaw (i : SegId) (origin : Origin) (s : State) :
    KeepsPortLaw s (beginHostFill i origin s).state := by
  unfold beginHostFill
  dsimp only
  split
  · exact failFill_keepsPortLaw ..
  · exact .of_store rfl (Store.filling_keepsHeld ‹_› origin)

/-- Bytes stored in overlay memory change no record. -/
theorem setSram_keepsPortLaw (s : State) (sram : List Host.Cell) :
    KeepsPortLaw s { s with store := { s.store with sram := sram } } := .of_store rfl (.of_seg_eq fun _ => rfl)

theorem chunkArrived_keepsPortLaw (data : List Byte) (s : State) : KeepsPortLaw s (chunkArrived data s).1 := by
  unfold chunkArrived
  split
  · rename_i i origin n crc _
    have hstored := setSram_keepsPortLaw s (overlayStore (s.store.blocksOf i) data n s.store.sram)
    dsimp only
    split
    · refine hstored.trans ?_
      dsimp only
      exact (requestChunk_keepsPortLaw _).after rfl rfl
    · split
      · exact hstored.trans (completeFill_keepsPortLaw ..)
      · exact hstored.trans (failFill_keepsPortLaw ..)
  all_goals exact .refl s

theorem stallFill_keepsPortLaw (s : State) : KeepsPortLaw s (stallFill s).1 := by
  unfold stallFill
  split
  · exact (failFill_keepsPortLaw _ _ s.withdrawChunk).after rfl rfl
  all_goals exact .refl s

/-! ### Catalog loader and start-up sequencer -/

theorem setOutcome_keepsPortLaw (s : State) (o : StartOutcome) : KeepsPortLaw s (s.setOutcome o) := by
  rw [State.setOutcome_eq]; exact .of_same rfl rfl

theorem mapEvent_keepsPortLaw (s : State) : KeepsPortLaw s (mapEvent s) := by
  unfold mapEvent
  split
  · exact (KeepsPortLaw.of_frame (writeBootEntry_frame s _) (by decide) (by decide)).trans (.of_same rfl rfl)
  · exact .of_same rfl rfl

theorem requestPreload_keepsPortLaw (id : Byte) (s : State) : KeepsPortLaw s (requestPreload id s).1 := by
  unfold requestPreload
  split
  · exact .refl s
  · split
    · exact .refl s
    · split
      · exact .refl s
      · exact startCatalogFill_keepsPortLaw ..
      · exact startCatalogFill_keepsPortLaw ..
      · exact .refl s

theorem preloadEvent_keepsPortLaw (s : State) : KeepsPortLaw s (preloadEvent s) := by
  unfold preloadEvent
  split
  · split
    · rename_i id _ _
      have hr := requestPreload_keepsPortLaw id s
      split <;> rename_i e <;> rw [e] at hr
      · exact hr.trans (.of_same rfl rfl)
      · exact hr
    · exact .of_same rfl rfl
  · exact .refl s

theorem sequencerEvent_keepsPortLaw (s : State) : KeepsPortLaw s (sequencerEvent s) := by
  rcases sequencerEvent_spec s with ⟨-, e⟩ | ⟨-, e⟩ | ⟨-, -, e⟩ | ⟨-, -, e⟩ | ⟨-, -, -, e⟩ <;> rw [e]
  · exact mapEvent_keepsPortLaw s
  · exact preloadEvent_keepsPortLaw s
  · exact .of_same rfl rfl
  · exact .of_frame (commitStartup_frame s) (by decide) (by decide)
  · exact .refl s

theorem respondLong_keepsPortLaw (s : State) (phase : Phase) (st : Status) (p : List Byte) :
    KeepsPortLaw s (s.respondLong phase st p) := by
  unfold State.respondLong
  split
  · split <;> exact .of_same rfl rfl
  · exact .refl s

theorem catalogEnd_keepsPortLaw (result : CatalogResult) (s : State) : KeepsPortLaw s (catalogEnd result s) := by
  unfold catalogEnd
  refine KeepsPortLaw.after (s' := { s with startup := { s.startup with catalog := none } }) ?_ rfl rfl
  dsimp only
  split
  · split
    · exact .of_same rfl rfl
    all_goals exact (setOutcome_keepsPortLaw _ _).trans (.of_same rfl rfl)
  · split <;> exact respondLong_keepsPortLaw ..

theorem requestCatalog_keepsPortLaw (s : State) : KeepsPortLaw s (requestCatalog s) := by
  unfold requestCatalog
  split
  · split
    · exact .of_same rfl rfl
    · exact catalogEnd_keepsPortLaw ..
    · exact catalogEnd_keepsPortLaw ..
  · exact .refl s

theorem readCatalog_keepsPortLaw (c : CatalogRead) (s : State) : KeepsPortLaw s (readCatalog c s) :=
  (requestCatalog_keepsPortLaw _).after rfl rfl

theorem applyDescriptor_keepsPortLaw (acc : State × Nat × Nat) (bs : List Byte) :
    KeepsPortLaw acc.1 (applyDescriptor acc bs).1 := by
  obtain ⟨s, m, k⟩ := acc
  unfold applyDescriptor
  dsimp only
  split
  · exact .of_same rfl rfl
  · split
    · exact .of_same rfl rfl
    · split
      · rename_i st h
        unfold Store.declareCatalog at h
        split at h
        · cases h
        · cases h; exact .of_store rfl (Store.declare_keepsHeld ‹_› rfl)
      · exact .of_same rfl rfl

theorem applyNext_keepsPortLaw (s : State) : KeepsPortLaw s (applyNext s) := by
  unfold applyNext
  split
  · rename_i next d rest m k _
    have hd := applyDescriptor_keepsPortLaw (s, m, k) d
    split <;> rename_i e _ <;> rw [e] at hd
    · exact hd.trans (catalogEnd_keepsPortLaw ..)
    · exact hd.trans (.of_same rfl rfl)
  · exact catalogEnd_keepsPortLaw ..
  all_goals exact .refl s

theorem nextEvent_keepsPortLaw (s : State) : KeepsPortLaw s (nextEvent s) := by
  rcases nextEvent_spec s with ⟨_, _, _, _, -, e⟩ | ⟨-, e⟩ <;> rw [e]
  · exact applyNext_keepsPortLaw s
  · exact sequencerEvent_keepsPortLaw s

theorem goOn_keepsPortLaw (n : Nat) (s : State) : KeepsPortLaw s (goOn n s) := by
  induction n generalizing s with
  | zero => exact .refl s
  | succ n ih => exact (nextEvent_keepsPortLaw s).trans (ih _)

theorem catalogArrived_keepsPortLaw (data : List Byte) (s : State) : KeepsPortLaw s (catalogArrived data s) := by
  unfold catalogArrived headerArrived descriptorsArrived
  split
  · dsimp only
    split
    · exact readCatalog_keepsPortLaw ..
    · split
      · exact catalogEnd_keepsPortLaw ..
      · split
        · exact catalogEnd_keepsPortLaw ..
        · exact readCatalog_keepsPortLaw ..
  · dsimp only
    split
    · exact readCatalog_keepsPortLaw ..
    · split
      · exact .of_same rfl rfl
      · exact catalogEnd_keepsPortLaw ..
  all_goals exact .refl s

theorem requestBoot_keepsPortLaw (ahead : List Byte) (s : State) : KeepsPortLaw s (requestBoot ahead s) := by
  unfold requestBoot
  split <;> exact .of_same rfl rfl

theorem stageCatalog_keepsPortLaw (r : BootRecord) (s : State) : KeepsPortLaw s (stageCatalog r s) := by
  unfold stageCatalog
  dsimp only
  split
  · exact (readCatalog_keepsPortLaw _ _).after rfl rfl
  · exact .of_same rfl rfl

theorem endStartup_keepsPortLaw (s : State) (o : StartOutcome) : KeepsPortLaw s (endStartup (s.setOutcome o)) :=
  (setOutcome_keepsPortLaw s o).trans (.of_same rfl rfl)

theorem bootArrived_keepsPortLaw (data ahead : List Byte) (s : State) :
    KeepsPortLaw s (bootArrived data ahead s) := by
  unfold bootArrived
  split
  · split
    · exact (requestBoot_keepsPortLaw ..).after rfl rfl
    · exact endStartup_keepsPortLaw ..
    · exact stageCatalog_keepsPortLaw ..
  · exact .refl s

theorem pollTaken_keepsPortLaw (ahead : List Byte) (s : State) : KeepsPortLaw s (pollTaken ahead s) := by
  rcases pollTaken_spec ahead s with ⟨-, -, e⟩ | ⟨-, -, e⟩ | ⟨-, e⟩ <;> rw [e]
  · exact (requestBoot_keepsPortLaw ..).after rfl rfl
  · exact endStartup_keepsPortLaw ..
  · exact .refl s

theorem preloadEnded_keepsPortLaw (failed : Bool) (taken : Nat) (s : State) :
    KeepsPortLaw s (preloadEnded failed taken s) := by
  rcases preloadEnded_spec failed taken s with ⟨-, e⟩ | ⟨-, e⟩ <;> rw [e]
  · exact (goOn_keepsPortLaw ..).after rfl rfl
  · exact .refl s

/-! ### The serial link -/

theorem deliverLoader_keepsPortLaw (q : LoaderRequest) (data ahead : List Byte) (taken : Nat) (s : State) :
    KeepsPortLaw s (deliverLoader q data ahead taken s) := by
  unfold deliverLoader
  split
  · exact .refl s
  · split
    · have hc := chunkArrived_keepsPortLaw data s
      split <;> rename_i e <;> rw [e] at hc
      · exact hc
      · exact hc.trans (preloadEnded_keepsPortLaw ..)
      · exact hc.trans (preloadEnded_keepsPortLaw ..)
    · exact (catalogArrived_keepsPortLaw data s).trans (goOn_keepsPortLaw ..)
    · exact (bootArrived_keepsPortLaw data ahead s).trans (goOn_keepsPortLaw ..)

/-- The head of the read queue is answered and its tag is free (R65). -/
theorem completeRead_keepsPortLaw (data : List Byte) (s : State) : KeepsPortLaw s (completeRead data s) := by
  unfold completeRead
  split
  · rename_i q rest hq
    exact ⟨fun h => h.readQueue rfl (freed := [q.tag]) rfl (by rw [hq]; exact .refl _)⟩
  · exact .of_same rfl rfl

theorem endRead_keepsPortLaw (data ahead : List Byte) (taken : Nat) (s : State) :
    KeepsPortLaw s (endRead data ahead taken s) := by
  unfold endRead
  split
  · split
    · split
      · exact completeRead_keepsPortLaw ..
      · unfold completeLoader
        split
        · exact (deliverLoader_keepsPortLaw ..).after rfl rfl
        · exact .of_same rfl rfl
      all_goals exact .refl s
    · exact .refl s
  all_goals exact .refl s

/-- A grant to R marks the head and keeps its tag (R65). -/
theorem grantRead_keepsPortLaw (s : State) : KeepsPortLaw s (grantRead s) := by
  unfold grantRead
  split
  · rename_i q rest hq
    refine ⟨fun h => h.readQueue rfl (queue := { q with active := true } :: rest) (freed := []) ?_
      (by rw [hq]; exact .refl _)⟩
    simp [freeTags]
  · exact .refl s

theorem stallCatalog_keepsPortLaw (s : State) : KeepsPortLaw s (stallCatalog s) := by
  unfold stallCatalog
  split
  · exact catalogEnd_keepsPortLaw ..
  · exact catalogEnd_keepsPortLaw ..
  all_goals exact .refl s

/-- Every entry of the read queue is answered and its tag is free (R66). -/
theorem errorReadQueue_keepsPortLaw (s : State) : KeepsPortLaw s (errorReadQueue s).1 :=
  ⟨fun h => h.readQueue (queue := []) (freed := s.port.readQueue.map (·.tag)) rfl rfl (by simp)⟩

theorem stallClients_keepsPortLaw (uncertain : Option (Nat × Nat)) (s : State) :
    KeepsPortLaw s (stallClients uncertain s) := by
  have hflush : ∀ u : State, KeepsPortLaw u (flushLoader u) := fun u =>
    (stallCatalog_keepsPortLaw _).after rfl rfl
  exact (errorReadQueue_keepsPortLaw s).trans
    ((stallFill_keepsPortLaw _).trans ((hflush _).trans (.of_same rfl rfl)))

theorem removeUncertain_keepsPortLaw (s : State) : KeepsPortLaw s (removeUncertain s).1 := by
  unfold removeUncertain
  split
  · split <;> exact .of_same rfl rfl
  · exact .refl s

theorem pollTimeout_keepsPortLaw (s : State) : KeepsPortLaw s (pollTimeout s) := by
  have hstall : KeepsPortLaw s s.stallLink := .of_same rfl rfl
  unfold pollTimeout
  split
  · exact hstall.trans ((removeUncertain_keepsPortLaw _).trans (stallClients_keepsPortLaw ..))
  · exact hstall.trans (stallClients_keepsPortLaw ..)
  all_goals exact .refl s

theorem pollComplete_keepsPortLaw (s : State) : KeepsPortLaw s (pollComplete s) := by
  unfold pollComplete
  split <;> exact .of_same rfl rfl

theorem endPoll_keepsPortLaw (status : Byte) (s : State) : KeepsPortLaw s (endPoll status s) := by
  unfold endPoll
  split
  · refine KeepsPortLaw.after (s' := { s with ctl := { s.ctl with tx := none } }) ?_ rfl rfl
    dsimp only
    split
    · exact pollComplete_keepsPortLaw _
    · split
      · exact pollTimeout_keepsPortLaw _
      · exact .refl _
  · exact .refl s

/-! ### Owners of management commands -/

theorem ownMapWrite_keepsPortLaw (p : List Byte) (s : State) : KeepsPortLaw s (ownMapWrite p s).state := by
  unfold ownMapWrite
  split <;> exact .of_same rfl rfl

theorem ownMapClear_keepsPortLaw (p : List Byte) (s : State) : KeepsPortLaw s (ownMapClear p s).state := by
  unfold ownMapClear
  split
  · exact .of_same rfl rfl
  · split <;> exact .of_same rfl rfl

theorem ownMapRead_keepsPortLaw (p : List Byte) (s : State) : KeepsPortLaw s (ownMapRead p s).state := by
  unfold ownMapRead
  split
  · split <;> exact .refl s
  · exact .refl s

theorem ownMapCommit_keepsPortLaw (p : List Byte) (s : State) : KeepsPortLaw s (ownMapCommit p s).state := by
  unfold ownMapCommit
  split <;> exact .of_same rfl rfl

theorem withDeclared_keepsPortLaw {p : List Byte} {s : State} {k : SegId → SegRecord → Reply}
    (hk : ∀ i r, s.store.seg i = some r → KeepsPortLaw s (k i r).state) :
    KeepsPortLaw s (withDeclared p s k).state := by
  unfold withDeclared
  split
  · exact .refl s
  · split
    · exact .refl s
    · exact hk _ _ ‹_›

theorem ownSegDeclare_keepsPortLaw (p : List Byte) (s : State) : KeepsPortLaw s (ownSegDeclare p s).state := by
  unfold ownSegDeclare
  split
  · split
    · exact .refl s
    · split
      · split
        · exact .refl s
        · exact .of_store rfl (Store.declare_keepsHeld ‹_› rfl)
      · exact .refl s
  · exact .refl s

/-- A release that is not refused is of a segment without held reads (R44). -/
theorem releaseRefusal_held {i : SegId} {r : SegRecord} {force : Bool} {s : State}
    (h : releaseRefusal i r force s = none) : r.held = 0 := by
  unfold releaseRefusal at h
  split_ifs at h with _ _ hheld
  exact Nat.eq_zero_of_not_pos hheld

theorem releaseSegment_keepsPortLaw {s : State} {i : SegId} {r : SegRecord} (hr : s.store.seg i = some r)
    (h0 : r.held = 0) : KeepsPortLaw s (releaseSegment i r s) := by
  have hheld : s.store.heldOf i = 0 := (Store.heldOf_declared hr).trans h0
  refine .of_store rfl ?_
  unfold releaseSegment
  dsimp only
  split
  · have hv := s.store.vacate_keepsHeld i
    exact hv.trans (Store.remove_keepsHeld ((hv.counts i).trans hheld))
  · exact Store.remove_keepsHeld hheld

theorem ownSegRelease_keepsPortLaw (p : List Byte) (s : State) : KeepsPortLaw s (ownSegRelease p s).state := by
  unfold ownSegRelease
  split
  · refine withDeclared_keepsPortLaw fun i r hr => ?_
    split
    · exact .refl s
    · exact releaseSegment_keepsPortLaw hr (releaseRefusal_held ‹_›)
  · exact .refl s

/-- A segment in a state without held reads becomes ABSENT. -/
theorem Store.KeepsHeld.leave {st : Store} {i : SegId} {r0 : SegRecord} (hr0 : st.seg i = some r0)
    (hn : ¬ r0.state.holds) {f : SegRecord → SegRecord} (hf : ∀ r, (f r).held = r.held) :
    st.KeepsHeld (st.update i f) :=
  .update st i hf fun _ hr _ hs => absurd (Option.some.inj (hr0.symm.trans hr) ▸ hs) hn

theorem ownSegDrop_keepsPortLaw (p : List Byte) (s : State) : KeepsPortLaw s (ownSegDrop p s).state := by
  unfold ownSegDrop
  split
  · refine withDeclared_keepsPortLaw fun i r hr => ?_
    split
    · rename_i hs
      have hv : (s.store.vacate i).seg i = some { r with blocks := [] } :=
        (s.store.seg_freeBlocks i i).trans (by rw [if_pos rfl, hr]; rfl)
      split
      · exact .refl s
      · exact .of_store rfl ((s.store.vacate_keepsHeld i).trans
          (.leave hv (by rw [hs]; exact SegState.not_holds_resident) fun _ => rfl))
    · rename_i hs
      exact .of_store rfl (.leave hr (by rw [hs]; exact SegState.not_holds_failed) fun _ => rfl)
    all_goals exact .refl s
  · exact .refl s

theorem ownSegPin_keepsPortLaw (p : List Byte) (s : State) : KeepsPortLaw s (ownSegPin p s).state := by
  unfold ownSegPin
  split
  · exact withDeclared_keepsPortLaw fun i _ _ =>
      .of_store rfl (.update s.store i (fun _ => rfl) fun _ _ _ h => h)
  · exact .refl s

theorem ownSegQuery_keepsPortLaw (p : List Byte) (s : State) : KeepsPortLaw s (ownSegQuery p s).state := by
  unfold ownSegQuery
  split <;> exact .refl s

theorem ownSegRead_keepsPortLaw (p : List Byte) (s : State) : KeepsPortLaw s (ownSegRead p s).state := by
  unfold ownSegRead
  refine withDeclared_keepsPortLaw fun i r _ => ?_
  dsimp only
  split
  · exact .refl s
  · split
    · exact .refl s
    · split <;> exact .refl s

theorem ownPreload_keepsPortLaw (p : List Byte) (s : State) : KeepsPortLaw s (ownPreload p s).state := by
  unfold ownPreload
  refine withDeclared_keepsPortLaw fun i r _ => ?_
  split
  any_goals exact .refl s
  all_goals
    split
    · exact .refl s
    · exact enqueueFill_keepsPortLaw s i

theorem ownFillBegin_keepsPortLaw (p : List Byte) (s : State) : KeepsPortLaw s (ownFillBegin p s).state := by
  unfold ownFillBegin
  refine withDeclared_keepsPortLaw fun i r _ => ?_
  split
  · split
    · exact beginHostFill_keepsPortLaw ..
    · exact .refl s
  · exact .refl s
  · exact .refl s
  · split
    · exact beginHostFill_keepsPortLaw ..
    · exact beginHostFill_keepsPortLaw ..
    all_goals exact .refl s

theorem ownFillData_keepsPortLaw (p : List Byte) (s : State) : KeepsPortLaw s (ownFillData p s).state := by
  unfold ownFillData
  split
  · dsimp only
    split
    · exact .refl s
    · split
      · exact .refl s
      · exact (setSram_keepsPortLaw s _).trans (.of_same rfl rfl)
  all_goals exact .refl s

theorem ownFillEnd_keepsPortLaw (p : List Byte) (s : State) : KeepsPortLaw s (ownFillEnd p s).state := by
  unfold ownFillEnd
  split
  · dsimp only
    split
    · exact failFill_keepsPortLaw ..
    · split
      · exact failFill_keepsPortLaw ..
      · exact completeFill_keepsPortLaw ..
  all_goals exact .refl s

theorem abortFill_keepsPortLaw (i : SegId) (origin : Origin) (s : State) :
    KeepsPortLaw s (abortFill i origin s).1 := by
  cases origin with
  | queue => exact (failFill_keepsPortLaw i .aborted s.withdrawChunk).after rfl rfl
  | direct prior => exact (undoFill_keepsPortLaw i prior s.withdrawChunk).after rfl rfl

theorem ownFillAbort_keepsPortLaw (p : List Byte) (s : State) : KeepsPortLaw s (ownFillAbort p s).state := by
  unfold ownFillAbort
  split
  · exact .refl s
  · split
    · split
      · exact abortFill_keepsPortLaw ..
      · exact .refl s
    · exact .refl s

theorem ownEventRead_keepsPortLaw (p : List Byte) (s : State) : KeepsPortLaw s (ownEventRead p s).state := by
  unfold ownEventRead
  dsimp only
  split <;> exact .of_same rfl rfl

theorem ownSetParam_keepsPortLaw (p : List Byte) (s : State) : KeepsPortLaw s (ownSetParam p s).state := by
  unfold ownSetParam
  split
  · rename_i t h
    unfold setParam at h
    split at h
    case h_6 => cases h
    all_goals split at h <;> cases h; exact .of_same rfl rfl
  · exact .refl s

/-! ### One lemma per command -/

theorem runCommand_keepsPortLaw {s : State} (code : Byte) {owner : List Byte → State → Reply}
    (ho : ∀ p, KeepsPortLaw s (owner p s).state) : Leads (KeepsPortLaw s) (runCommand code owner s) :=
  .runCommand (.refl s) fun _ p _ => (ho p).trans (.of_same rfl rfl)

/-- The port and the store at their reset values meet the law (R73, R74). -/
theorem KeepsPortLaw.of_reset {s t : State} {sram : List Host.Cell} (hs : t.store = Store.reset sram)
    (hp : t.port = Port.reset) : KeepsPortLaw s t := ⟨fun _ => .of_reset hs hp⟩

theorem execPinReset_keepsPortLaw (powerOn : Bool) (s : State) :
    Leads (KeepsPortLaw s) (execPinReset powerOn s) := by
  unfold execPinReset
  split
  · exact .next (.refl s)
  · exact .next (.of_reset rfl rfl)

theorem execPinResetRelease_keepsPortLaw (sz : BitVec 3) (ma : BitVec 2) (bootEn : Bool) (s : State) :
    Leads (KeepsPortLaw s) (execPinResetRelease sz ma bootEn s) := by
  unfold execPinResetRelease
  split
  · refine .next ?_
    rw [beginStartup_eq]
    exact .of_reset rfl rfl
  · exact .next (.refl s)

theorem execReset_keepsPortLaw (s : State) : Leads (KeepsPortLaw s) (execReset s) := by
  unfold execReset
  split
  · refine .next ?_
    rw [softReset_eq]
    exact .of_reset rfl rfl
  · exact .next (.refl s)

theorem execArbiterChoice_keepsPortLaw (s : State) : Leads (KeepsPortLaw s) (execArbiterChoice s) := by
  unfold execArbiterChoice
  split
  · exact .next (grantRead_keepsPortLaw s)
  · unfold grantWrite
    split <;> exact .next (.of_same rfl rfl)
  · unfold grantLoader
    split <;> exact .next (.of_same rfl rfl)
  · exact .next (.refl s)

theorem execReadTransactionEnd_keepsPortLaw (data : ReadEnd) (s : State) :
    Leads (KeepsPortLaw s) (execReadTransactionEnd data s) := by
  cases data with
  | ends bytes ahead taken => exact .next (endRead_keepsPortLaw ..)
  | goesOn count => exact .next (goOn_keepsPortLaw ..)

theorem execPollEnd_keepsPortLaw (status : PollAnswer) (s : State) :
    Leads (KeepsPortLaw s) (execPollEnd status s) := by
  cases status with
  | ends status ahead taken =>
    refine .next ?_
    split
    · exact (endPoll_keepsPortLaw ..).trans (pollTaken_keepsPortLaw ..)
    · exact endPoll_keepsPortLaw ..
  | taken ahead => exact .next (pollTaken_keepsPortLaw ..)

theorem execWriteEnableEnd_keepsPortLaw (s : State) : Leads (KeepsPortLaw s) (execWriteEnableEnd s) := by
  unfold execWriteEnableEnd
  split <;> exact .next (.of_same rfl rfl)

theorem execWriteTransactionEnd_keepsPortLaw (s : State) :
    Leads (KeepsPortLaw s) (execWriteTransactionEnd s) := by
  unfold execWriteTransactionEnd
  split <;> exact .next (.of_same rfl rfl)

theorem execPollStart_keepsPortLaw (s : State) : Leads (KeepsPortLaw s) (execPollStart s) := by
  unfold execPollStart
  split <;> exact .next (.of_same rfl rfl)

theorem execBusyTimerExpiry_keepsPortLaw (s : State) : Leads (KeepsPortLaw s) (execBusyTimerExpiry s) := by
  unfold execBusyTimerExpiry
  split <;> exact .next (.of_same rfl rfl)

theorem startWrite_keepsPortLaw (addr : BitVec 7) (s : State) : KeepsPortLaw s (startWrite addr s) := by
  unfold startWrite
  dsimp only
  split
  · split <;> exact .of_same rfl rfl
  · exact .of_same rfl rfl

theorem receiveBytes_keepsPortLaw (data : List Byte) (s : State) : KeepsPortLaw s (data.foldl receiveByte s) :=
  .of_frame (receiveBytes_frame data s) (by decide) (by decide)

theorem execWriteTransferStart_keepsPortLaw (addr : WritePart) (s : State) :
    Leads (KeepsPortLaw s) (execWriteTransferStart addr s) := by
  unfold execWriteTransferStart
  split
  · exact .next ((startWrite_keepsPortLaw ..).trans (receiveBytes_keepsPortLaw ..))
  · exact .next (receiveBytes_keepsPortLaw ..)

theorem execFrameComplete_keepsPortLaw (code : Byte) (payload : List Byte) (check : Byte) (s : State) :
    Leads (KeepsPortLaw s) (execFrameComplete code payload check s) := by
  unfold execFrameComplete
  split
  · split <;> exact .next (.of_same rfl rfl)
  · exact .next (.refl s)

theorem execFrameDiscard_keepsPortLaw (cause : DiscardCause) (s : State) :
    Leads (KeepsPortLaw s) (execFrameDiscard cause s) := by
  unfold execFrameDiscard
  split
  · split
    · split <;> exact .next (.of_same rfl rfl)
    · exact .next (.of_same rfl rfl)
  · exact .next (.refl s)

theorem execReadTransfer_keepsPortLaw (addr : Option (BitVec 7)) (count : Nat) (s : State) :
    Leads (KeepsPortLaw s) (execReadTransfer addr count s) := by
  unfold execReadTransfer
  split
  · dsimp only
    split <;> exact .next (.of_same rfl rfl)
  · split <;> exact .next (.of_same rfl rfl)

theorem takeBuffer_keepsPortLaw (b : BufId) (f : Frame) (seq : BitVec 8) (ok : Bool) (s : State) :
    KeepsPortLaw s (takeBuffer b f seq ok s) := by
  unfold takeBuffer
  dsimp only
  split <;> exact .of_same rfl rfl

theorem execExecutorTake_keepsPortLaw (s : State) : Leads (KeepsPortLaw s) (execExecutorTake s) := by
  unfold execExecutorTake
  split
  · split
    · split
      · exact .next (takeBuffer_keepsPortLaw ..)
      all_goals exact .next (.refl s)
    · exact .next (.refl s)
  · exact .next (.refl s)

theorem execStatus_keepsPortLaw (owners : Nat) (s : State) : Leads (KeepsPortLaw s) (execStatus owners s) := by
  unfold execStatus
  split
  · dsimp only
    split <;> exact .next (.of_same rfl rfl)
  · exact .next (.refl s)

theorem execCatalogLoad_keepsPortLaw (s : State) : Leads (KeepsPortLaw s) (execCatalogLoad s) := by
  unfold execCatalogLoad
  split
  · split
    · exact .next (.of_same rfl rfl)
    all_goals exact .next ((readCatalog_keepsPortLaw _ _).after rfl rfl)
  · exact .next (.refl s)

theorem execLinkRecover_keepsPortLaw (s : State) : Leads (KeepsPortLaw s) (execLinkRecover s) := by
  unfold execLinkRecover
  split
  · split <;> exact .next (.of_same rfl rfl)
  · exact .next (.refl s)

theorem execLinkRecoverPollEnd_keepsPortLaw (status : Byte) (s : State) :
    Leads (KeepsPortLaw s) (execLinkRecoverPollEnd status s) := by
  unfold execLinkRecoverPollEnd
  split
  · split <;> exact .next ((respondLong_keepsPortLaw ..).after rfl rfl)
  · exact .next (.refl s)

theorem execStartTimerExpiry_keepsPortLaw (s : State) : Leads (KeepsPortLaw s) (execStartTimerExpiry s) := by
  unfold execStartTimerExpiry
  split
  · exact .next (failFill_keepsPortLaw ..)
  all_goals exact .next (.refl s)

theorem execGapTimerExpiry_keepsPortLaw (s : State) : Leads (KeepsPortLaw s) (execGapTimerExpiry s) := by
  unfold execGapTimerExpiry
  split
  · exact .next (failFill_keepsPortLaw ..)
  all_goals exact .next (.refl s)

/-! ### Every command, every step -/

theorem exec_keepsPortLaw (c : Instr) (s : State) : Leads (KeepsPortLaw s) (exec c s) := by
  cases c with
  | pinReset powerOn => exact execPinReset_keepsPortLaw powerOn s
  | pinResetRelease sz ma be => exact execPinResetRelease_keepsPortLaw sz ma be s
  | read tag addr len => exact .next (presentRead_keepsPortLaw ..)
  | write addr data => exact .next (presentWrite_keepsPortLaw ..)
  | arbiterChoice => exact execArbiterChoice_keepsPortLaw s
  | readTransactionEnd data => exact execReadTransactionEnd_keepsPortLaw data s
  | writeEnableEnd => exact execWriteEnableEnd_keepsPortLaw s
  | writeTransactionEnd => exact execWriteTransactionEnd_keepsPortLaw s
  | pollStart => exact execPollStart_keepsPortLaw s
  | busyTimerExpiry => exact execBusyTimerExpiry_keepsPortLaw s
  | pollEnd status => exact execPollEnd_keepsPortLaw status s
  | writeTransferStart addr => exact execWriteTransferStart_keepsPortLaw addr s
  | frameComplete code payload check => exact execFrameComplete_keepsPortLaw code payload check s
  | frameDiscard cause => exact execFrameDiscard_keepsPortLaw cause s
  | readTransfer addr count => exact execReadTransfer_keepsPortLaw addr count s
  | executorTake => exact execExecutorTake_keepsPortLaw s
  | identify => exact runCommand_keepsPortLaw 0x01 fun _ => .refl s
  | status owners => exact execStatus_keepsPortLaw owners s
  | setParam => exact runCommand_keepsPortLaw 0x03 fun p => ownSetParam_keepsPortLaw p s
  | reset => exact execReset_keepsPortLaw s
  | eventRead => exact runCommand_keepsPortLaw 0x05 fun p => ownEventRead_keepsPortLaw p s
  | mapWrite => exact runCommand_keepsPortLaw 0x10 fun p => ownMapWrite_keepsPortLaw p s
  | mapClear => exact runCommand_keepsPortLaw 0x11 fun p => ownMapClear_keepsPortLaw p s
  | mapCopy => exact runCommand_keepsPortLaw 0x12 fun p => .of_same rfl rfl
  | mapRead => exact runCommand_keepsPortLaw 0x13 fun p => ownMapRead_keepsPortLaw p s
  | mapCommit => exact runCommand_keepsPortLaw 0x14 fun p => ownMapCommit_keepsPortLaw p s
  | segDeclare => exact runCommand_keepsPortLaw 0x20 fun p => ownSegDeclare_keepsPortLaw p s
  | segRelease => exact runCommand_keepsPortLaw 0x21 fun p => ownSegRelease_keepsPortLaw p s
  | segDrop => exact runCommand_keepsPortLaw 0x22 fun p => ownSegDrop_keepsPortLaw p s
  | segPin => exact runCommand_keepsPortLaw 0x23 fun p => ownSegPin_keepsPortLaw p s
  | segQuery => exact runCommand_keepsPortLaw 0x24 fun p => ownSegQuery_keepsPortLaw p s
  | segRead => exact runCommand_keepsPortLaw 0x25 fun p => ownSegRead_keepsPortLaw p s
  | preload => exact runCommand_keepsPortLaw 0x30 fun p => ownPreload_keepsPortLaw p s
  | fillBegin => exact runCommand_keepsPortLaw 0x31 fun p => ownFillBegin_keepsPortLaw p s
  | fillData => exact runCommand_keepsPortLaw 0x32 fun p => ownFillData_keepsPortLaw p s
  | fillEnd => exact runCommand_keepsPortLaw 0x33 fun p => ownFillEnd_keepsPortLaw p s
  | fillAbort => exact runCommand_keepsPortLaw 0x34 fun p => ownFillAbort_keepsPortLaw p s
  | catalogLoad => exact execCatalogLoad_keepsPortLaw s
  | linkRecover => exact execLinkRecover_keepsPortLaw s
  | linkRecoverPollEnd status => exact execLinkRecoverPollEnd_keepsPortLaw status s
  | takeHead => exact .next (takeHead_keepsPortLaw s)
  | startTimerExpiry => exact execStartTimerExpiry_keepsPortLaw s
  | gapTimerExpiry => exact execGapTimerExpiry_keepsPortLaw s

theorem step_keepsPortLaw (s : State) : Leads (KeepsPortLaw s) (step s) :=
  step_leads .refl (fun s c rest _ t ht => (exec_keepsPortLaw c { s with pending := rest } t ht).after rfl rfl) s

/-- Settles O60: the law across each command (`exec_keepsPortLaw`), one lemma per operation. The law of the store is
not needed: each event makes by itself the checks that keep a segment with held reads in a state that may have
them. -/
theorem portLawKept : Obligations.PortLawKept := fun s t _ hs h => (step_keepsPortLaw s t h).law hs

end Sys2Proof.Machine
end

section
/-! PROOFS. Host reads as whole presentations: the acceptance checks, then the route of a miss and of a hit by segment
state and absence policy (R54 to R63), and the refusals of host writes that hit (R105, R106). -/

namespace Sys2Proof.Machine

/-! ### The acceptance checks (R54, R55) -/

/-- A presentation that begins goes through the acceptance checks, whichever part of it the event carries out. -/
theorem presentRead_accepts {s : State} (hl : s.port.looked = none) {part : PresentPart} (hp : part ≠ .enquiry)
    (q : ReadRequest) : ∃ onHit, presentRead q part s = acceptRead q onHit s := by
  cases part with
  | whole => exact ⟨_, presentRead_whole hl q⟩
  | lookup => exact ⟨_, presentRead_lookup hl q⟩
  | enquiry => exact absurd rfl hp

theorem presentWrite_accepts {s : State} (hl : s.port.looked = none) {part : PresentPart} (hp : part ≠ .enquiry)
    (addr : Nat) (data : List Byte) : ∃ onHit, presentWrite addr data part s = acceptWrite addr data onHit s := by
  cases part with
  | whole => exact ⟨_, presentWrite_whole hl addr data⟩
  | lookup => exact ⟨_, presentWrite_lookup hl addr data⟩
  | enquiry => exact absurd rfl hp

theorem State.starting_iff (s : State) : s.starting = true ↔ s.startup.stage ≠ .run := by simp [State.starting]

theorem crossesWindow_iff (addr len : Nat) : crossesWindow addr len = true ↔ 32 < addr % 32 + len := by
  rw [crossesWindow_eq, decide_eq_true_eq]

theorem acceptRead_starting {s : State} (h : s.startup.stage ≠ .run) (q : ReadRequest)
    (onHit : Hit → State → State) : acceptRead q onHit s = s.emit (.answer .retry) :=
  if_pos (s.starting_iff.mpr h)

theorem acceptRead_crossing {s : State} (hr : s.startup.stage = .run) {q : ReadRequest}
    (hw : 32 < q.addr % 32 + q.len) (onHit : Hit → State → State) :
    acceptRead q onHit s = refuseRead q .align none s :=
  (if_neg (mt s.starting_iff.mp (not_not.mpr hr))).trans (if_pos ((crossesWindow_iff _ _).mpr hw))

theorem acceptRead_outstanding {s : State} (hr : s.startup.stage = .run) {q : ReadRequest}
    (hw : q.addr % 32 + q.len ≤ 32) (ht : q.tag ∈ s.port.tags) (onHit : Hit → State → State) :
    acceptRead q onHit s = s.emit (.answer .retry) :=
  (if_neg (mt s.starting_iff.mp (not_not.mpr hr))).trans
    ((if_neg (mt (crossesWindow_iff _ _).mp (Nat.not_lt.mpr hw))).trans (if_pos ht))

theorem acceptWrite_starting {s : State} (h : s.startup.stage ≠ .run) (addr : Nat) (data : List Byte)
    (onHit : Hit → State → State) : acceptWrite addr data onHit s = s.emit (.answer .retry) :=
  if_pos (s.starting_iff.mpr h)

theorem acceptWrite_crossing {s : State} (hr : s.startup.stage = .run) {addr : Nat} {data : List Byte}
    (hw : 32 < addr % 32 + data.length) (onHit : Hit → State → State) :
    acceptWrite addr data onHit s = refuseWrite addr data.length .align none s :=
  (if_neg (mt s.starting_iff.mp (not_not.mpr hr))).trans (if_pos ((crossesWindow_iff _ _).mpr hw))

/-- Settles O5, check by check. -/
theorem acceptanceChecks : Obligations.AcceptanceChecks := by
  refine fun part hp => ⟨fun tag addr len s hl => ?_, fun addr data s hl => ?_⟩
  · obtain ⟨onHit, e⟩ := presentRead_accepts hl hp ⟨tag, addr.toNat, len⟩
    rw [exec_read, e]
    refine ⟨fun h => ?_, fun hr hw => ?_⟩
    · by_cases hr : s.startup.stage = .run
      · obtain ⟨hw, ht⟩ := h.resolve_left (not_not.mpr hr)
        rw [acceptRead_outstanding hr hw ht]; rfl
      · rw [acceptRead_starting hr]; rfl
    · rw [acceptRead_crossing hr hw]; rfl
  · obtain ⟨onHit, e⟩ := presentWrite_accepts hl hp addr.toNat data
    rw [exec_write, e]
    refine ⟨fun hr => ?_, fun hr hw => ?_⟩
    · rw [acceptWrite_starting hr]; rfl
    · rw [acceptWrite_crossing hr hw]; rfl

/-! ### Downstream (R59, R61) -/

theorem readDownstream_range {s : State} {q : ReadRequest} (h : s.memSize ≤ q.addr) (seg request : Option SegId) :
    readDownstream q seg request s = refuseRead q .range seg s := if_pos h

theorem readDownstream_stalled {s : State} {q : ReadRequest} (h : q.addr < s.memSize) (hl : s.ctl.link = .stalled)
    (seg request : Option SegId) : readDownstream q seg request s = refuseRead q .linkStalled seg s :=
  (if_neg (Nat.not_le.mpr h)).trans (if_pos hl)

theorem readDownstream_admitted {s : State} {q : ReadRequest} (h : q.addr < s.memSize) (hl : s.ctl.link ≠ .stalled)
    (seg request : Option SegId) : readDownstream q seg request s =
      match request with
      | some i => (s.admitRead q).requestFill i
      | none => s.admitRead q :=
  (if_neg (Nat.not_le.mpr h)).trans (if_neg hl)

theorem exec_read_passed {tag : Tag} {addr : Addr} {len : Nat} {s : State} (hl : s.port.looked = none)
    (hr : s.startup.stage = .run) (hw : addr.toNat % 32 + len ≤ 32) (ht : tag ∉ s.port.tags) :
    (s.map.lookup addr.toNat len = none → exec (.read tag addr ⟨len, .whole⟩) s =
      .next (readDownstream ⟨tag, addr.toNat, len⟩ none none s)) ∧
    ∀ x, s.map.lookup addr.toNat len = some x → exec (.read tag addr ⟨len, .whole⟩) s =
      .next (routeHit ⟨tag, addr.toNat, len⟩ x s) := by
  have hacc := acceptRead_passed (q := ⟨tag, addr.toNat, len⟩) hr hw ht (routeHit ⟨tag, addr.toNat, len⟩)
  rw [exec_read, presentRead_whole hl, hacc]
  exact ⟨fun h => by rw [h], fun x h => by rw [h]⟩

/-- Settles O7: a miss, and a hit whose segment is gone, go downstream alike (`routeHit_undeclared`). -/
theorem readMissQueued : Obligations.ReadMissQueued := by
  intro tag addr len s hl hr hw ht h
  obtain ⟨hmiss, hhit⟩ := exec_read_passed hl hr hw ht
  have hdown : exec (.read tag addr ⟨len, .whole⟩) s =
      .next (readDownstream ⟨tag, addr.toNat, len⟩ none none s) := by
    rcases h with h | ⟨x, h, hs⟩
    · exact hmiss h
    · rw [hhit x h, routeHit_undeclared hs]
  rw [hdown]
  unfold readDownstream
  split
  · rfl
  · split <;> rfl

/-! ### The route of a hit by segment state and absence policy (R58) -/

section
variable {q : ReadRequest} {x : Hit} {s : State} {r : SegRecord}

theorem routeHit_resident (hr : s.store.seg x.seg = some r) (hs : r.state = .resident) :
    routeHit q x s = answerOverlay q x r s := by
  unfold routeHit; rw [hr]; dsimp only; rw [hs]

/-- A HOLD read parks but on a RESIDENT or a FAILED segment. -/
theorem routeHit_hold (hp : x.apol = .hold) (hr : s.store.seg x.seg = some r) (h1 : r.state ≠ .resident)
    (h2 : r.state ≠ .failed) : routeHit q x s = parkRead q x (decide (r.state = .absent)) s := by
  unfold routeHit
  rw [hr, hp]
  cases hs : r.state with
  | resident => exact absurd hs h1
  | failed => exact absurd hs h2
  | _ => simp [hs]

theorem routeHit_hold_failed (hp : x.apol = .hold) (hr : s.store.seg x.seg = some r) (hs : r.state = .failed) :
    routeHit q x s = refuseRead q .segFailed (some x.seg) s := by
  unfold routeHit; rw [hr, hp]; dsimp only; rw [hs]

/-- A PASS or QUIET read goes downstream; only PASS on an ABSENT segment requests its fill. -/
theorem routeHit_passQuiet (hp : x.apol = .pass ∨ x.apol = .quiet) (hr : s.store.seg x.seg = some r)
    (h1 : r.state ≠ .resident) : routeHit q x s = readDownstream q (some x.seg)
      (if x.apol = .pass ∧ r.state = .absent then some x.seg else none) s := by
  unfold routeHit
  rw [hr]
  rcases hp with hp | hp <;> rw [hp] <;> cases hs : r.state with
    | resident => exact absurd hs h1
    | _ => simp [hs]

theorem routeHit_fault (hp : x.apol = .fault) (hr : s.store.seg x.seg = some r) (h1 : r.state ≠ .resident) :
    routeHit q x s = refuseRead q .mapFault (some x.seg) s := by
  unfold routeHit
  rw [hr, hp]
  cases hs : r.state with
  | resident => exact absurd hs h1
  | _ => simp [hs]

end

/-- Settles O8. -/
theorem readOverlayAnswered : Obligations.ReadOverlayAnswered := by
  intro tag addr len s x r hl hrun hw ht hx hr hs
  rw [(exec_read_passed hl hrun hw ht).2 x hx, routeHit_resident hr hs]
  rfl

/-! ### Parking (R60) -/

/-- Settles O9: with room the read is held, and on an ABSENT segment its fill queued in the same event. -/
theorem readHoldParks : Obligations.ReadHoldParks := by
  intro tag addr len s x r hl hrun hw ht hx hp hr h1 h2
  refine ⟨_, (exec_read_passed hl hrun hw ht).2 x hx, ?_⟩
  rw [routeHit_hold hp hr h1 h2]
  generalize hq : (⟨tag, addr.toNat, len⟩ : ReadRequest) = q
  have hseg := State.holdRead_seg hr q
  have hframe := s.holdRead_frame q x
  by_cases hfull : 8 ≤ s.port.held.length ∨ (r.state = .absent ∧ 8 ≤ s.fill.queue.length)
  · rw [if_pos hfull, parkRead_full (by simpa using hfull)]; rfl
  · rw [if_neg hfull, parkRead_room (by simpa using hfull)]
    subst hq
    by_cases ha : r.state = .absent
    · simp only [ha, decide_true, if_true]
      exact ⟨rfl, rfl, State.enqueueFill_seg hseg, (s.holdRead_sameOff _ x).trans (State.enqueueFill_sameOff _ x.seg),
        rfl, rfl, rfl, rfl, (hframe.mono (by simp)).trans ((State.enqueueFill_frame _ _).mono (by simp))⟩
    · simp only [ha, decide_false, if_false, Bool.false_eq_true]
      exact ⟨rfl, rfl, hseg, s.holdRead_sameOff _ x, rfl, rfl, rfl, rfl, hframe.mono (by simp)⟩

/-! ### PASS and QUIET (R61) -/

/-- Settles O10: the read is admitted; under PASS an ABSENT segment is queued where the queue has room. -/
theorem readPassQueued : Obligations.ReadPassQueued := by
  intro tag addr len s x r hl hrun hw ht hx hp hr h1 hsize hlink
  refine ⟨_, (exec_read_passed hl hrun hw ht).2 x hx, ?_⟩
  rw [routeHit_passQuiet hp hr h1, readDownstream_admitted hsize hlink]
  have hframe := s.admitRead_frame ⟨tag, addr.toNat, len⟩
  by_cases ha : x.apol = .pass ∧ r.state = .absent
  · rw [if_pos ha]
    by_cases hroom : s.fill.queue.length < 8
    · rw [if_pos ⟨ha.1, ha.2, hroom⟩]
      dsimp only
      rw [State.requestFill_room (s := s.admitRead _) hroom]
      exact ⟨rfl, rfl, (hframe.mono (by simp)).trans ((State.enqueueFill_frame _ _).mono (by simp)), rfl,
        State.enqueueFill_seg hr, State.enqueueFill_sameOff _ x.seg, rfl, rfl, rfl⟩
    · rw [if_neg fun h => hroom h.2.2]
      dsimp only
      rw [State.requestFill_full (s := s.admitRead _) hroom]
      exact ⟨rfl, rfl, hframe.mono (by simp), rfl, rfl⟩
  · rw [if_neg ha, if_neg fun h => ha ⟨h.1, h.2.1⟩]
    exact ⟨rfl, rfl, hframe.mono (by simp), rfl, rfl⟩

/-! ### Refusals of a request that hits (R63, R105, R106) -/

theorem routeWriteHit_fault {x : Hit} (hp : x.wpol = .fault) (addr : Nat) (data : List Byte) (s : State) :
    routeWriteHit addr data x s = refuseWrite addr data.length .writeFault (some x.seg) s := by
  simp [routeWriteHit, hp]

theorem shadowWrite_notResident {s : State} {x : Hit} (h : ∀ r, s.store.seg x.seg = some r → r.state ≠ .resident)
    (addr : Nat) (data : List Byte) :
    shadowWrite addr data x s = refuseWrite addr data.length .notResident (some x.seg) s := by
  cases hr : s.store.seg x.seg with
  | none => exact shadowWrite_undeclared hr addr data
  | some r => unfold shadowWrite; rw [hr]; exact if_neg (h r hr)

/-- Settles O11, refusal by refusal. -/
theorem hitsRefused : Obligations.HitsRefused := by
  refine ⟨fun tag addr len s x r reason hl hrun hw ht hx hr h1 h => ?_,
    fun addr data s x reason hl hrun hw hx h => ?_⟩
  · rw [(exec_read_passed hl hrun hw ht).2 x hx]
    rcases h with ⟨hp, hs, rfl⟩ | ⟨hp, rfl⟩ | ⟨hp, hsize, rfl⟩ | ⟨hp, hsize, hlink, rfl⟩
    · rw [routeHit_hold_failed hp hr hs]; rfl
    · rw [routeHit_fault hp hr h1]; rfl
    · rw [routeHit_passQuiet hp hr h1, readDownstream_range hsize]; rfl
    · rw [routeHit_passQuiet hp hr h1, readDownstream_stalled hsize hlink]; rfl
  · rw [exec_write, presentWrite_whole hl, acceptWrite_passed hrun hw, hx]
    dsimp only
    rcases h with ⟨hp, rfl⟩ | ⟨hp, hs, rfl⟩
    · rw [routeWriteHit_fault hp]; rfl
    · rw [routeWriteHit_shadow hp, shadowWrite_notResident hs]; rfl

end Sys2Proof.Machine
end

section
/-! PROOFS. The end of a READ (R65, R123, R127), and the timeouts that stall the link (R130, R136). -/

namespace Sys2Proof.Machine

/-! ### The end of a READ (R127) -/

theorem freeTags_eq (tags freed : List Tag) : freeTags tags freed = tags.filter fun t => decide (t ∉ freed) :=
  List.filter_congr fun t _ => by by_cases ht : t ∈ freed <;> simp [ht]

/-- Only a boot-record READ, which client L makes, is checked against the record's end (log 7). -/
theorem State.readFits_holder {s : State} (h : s.ctl.holder ≠ .l) (data : List Byte) : s.readFits data = true := by
  unfold State.readFits
  split
  · exact absurd ‹_› h
  · rfl

theorem endRead_fits {s : State} {data : List Byte} {a d : Nat} (htx : s.ctl.tx = some ⟨.read a data.length, d⟩)
    (hfit : s.readFits data = true) (ahead : List Byte) (taken : Nat) : endRead data ahead taken s =
      match s.ctl.holder with
      | .r => completeRead data s
      | .l => completeLoader data ahead taken s
      | .none | .w | .poll => s := by
  unfold endRead
  rw [htx]
  exact if_pos ⟨rfl, hfit⟩

/-- Another number of bytes than asked for, or bytes that show another end of the record, are no end (logs 2, 7). -/
theorem endRead_misfit {s : State} {data : List Byte} {a n d : Nat} (htx : s.ctl.tx = some ⟨.read a n, d⟩)
    (h : ¬ (data.length = n ∧ s.readFits data = true)) (ahead : List Byte) (taken : Nat) :
    endRead data ahead taken s = s := by
  unfold endRead
  rw [htx]
  exact if_neg h

theorem completeRead_cons {s : State} {q : ReadEntry} {rest : List ReadEntry} (h : s.port.readQueue = q :: rest)
    (data : List Byte) : completeRead data s = { s with
      outputs := s.outputs ++ [.data q.tag data]
      port := { s.port with
        readQueue := rest
        tags := s.port.tags.filter fun t => decide (t ≠ q.tag) }
      ctl := { s.ctl with tx := none, holder := .none } } := by
  have htags : freeTags s.port.tags [q.tag] = s.port.tags.filter fun t => decide (t ≠ q.tag) := by
    rw [freeTags_eq]; simp
  unfold completeRead
  rw [h]
  dsimp only
  rw [htags]
  rfl

/-- The link is free and the loader's head request has left: what a request's end writes before its bytes are
delivered (R123). -/
def State.loaderPopped (s : State) (rest : List LoaderRequest) : State :=
  { s with ctl := { s.ctl with tx := none, holder := .none, loader := rest } }

theorem endRead_loader {s : State} {data : List Byte} {a d : Nat} (htx : s.ctl.tx = some ⟨.read a data.length, d⟩)
    (hh : s.ctl.holder = .l) {q : LoaderRequest} {rest : List LoaderRequest} (hq : s.ctl.loader = q :: rest)
    (hfit : s.readFits data = true) (ahead : List Byte) (taken : Nat) :
    endRead data ahead taken s = deliverLoader q data ahead taken (s.loaderPopped rest) := by
  rw [endRead_fits htx hfit, hh]
  dsimp only
  unfold completeLoader
  rw [hq]
  rfl

theorem deliverLoader_withdrawn {q : LoaderRequest} (h : q.withdrawn = true) (data ahead : List Byte) (taken : Nat)
    (s : State) : deliverLoader q data ahead taken s = s := if_pos h

theorem deliverLoader_catalog {q : LoaderRequest} (h : q.withdrawn = false) (hc : q.client = .catalog)
    (data ahead : List Byte) (taken : Nat) (s : State) :
    deliverLoader q data ahead taken s = goOn taken (catalogArrived data s) := by
  simp [deliverLoader, h, hc]

theorem deliverLoader_boot {q : LoaderRequest} (h : q.withdrawn = false) (hc : q.client = .bootRecord)
    (data ahead : List Byte) (taken : Nat) (s : State) :
    deliverLoader q data ahead taken s = goOn taken (bootArrived data ahead s) := by
  simp [deliverLoader, h, hc]

theorem exec_readEnds (data ahead : List Byte) (taken : Nat) (s : State) :
    exec (.readTransactionEnd (.ends data ahead taken)) s = .next (endRead data ahead taken s) := rfl

/-- Settles O36: with holder R the read-queue head, with holder L the loader's head request by its requester. -/
theorem readCompletes : Obligations.ReadCompletes := by
  refine ⟨fun s data ahead taken q rest a d htx hh hq => ?_, ?_, fun s data ahead taken a n d htx hlen => ?_⟩
  · rw [exec_readEnds, endRead_fits htx (State.readFits_holder (by rw [hh]; nofun) data), hh]
    dsimp only
    rw [completeRead_cons hq]
  · rintro s data ahead taken q rest a d _ htx hh hq rfl
    have hend := endRead_loader htx hh hq (ahead := ahead) (taken := taken)
    refine ⟨fun hc hw => ?_, fun hc hw => ?_, fun r hr hc => ⟨fun hlen hw => ?_, fun hlen => ?_⟩⟩
    · rw [exec_readEnds, hend (State.readFits_other hq hc data), deliverLoader_withdrawn hw]; rfl
    · rw [exec_readEnds, hend (State.readFits_other hq (by rw [hc]; nofun) data), deliverLoader_catalog hw hc]; rfl
    · have hfit : s.readFits data = true := by
        rw [State.readFits_boot hh hq hr hc]; exact decide_eq_true hlen
      rw [exec_readEnds, hend hfit, deliverLoader_boot hw hc]; rfl
    · have hfit : ¬ s.readFits data = true := by
        rw [State.readFits_boot hh hq hr hc, decide_eq_true_eq]; exact hlen
      rw [exec_readEnds, endRead_misfit htx fun h => hfit h.2]
  · rw [exec_readEnds, endRead_misfit htx fun h => hlen h.1]

/-! ### The fill engine at a stall (R84) -/

theorem stallFill_loading {s : State} {i : SegId} {o : Origin} {n : Nat} {c : BitVec 16}
    (h : s.fill.engine = .loadingCatalog i o n c) :
    stallFill s = (failFill i .dnStalled s.withdrawChunk, true) := by
  unfold stallFill; rw [h]

theorem stallFill_other {s : State} (h : ∀ i o n c, s.fill.engine ≠ .loadingCatalog i o n c) :
    stallFill s = (s, false) := by
  unfold stallFill
  split
  · exact absurd ‹_› (h _ _ _ _)
  all_goals rfl

theorem stallFill_spec (s : State) : stallFill s = (s, false) ∨
    ∃ i, stallFill s = (failFill i .dnStalled s.withdrawChunk, true) := by
  unfold stallFill
  split
  · exact .inr ⟨_, rfl⟩
  all_goals exact .inl rfl

theorem stallFill_frame (s : State) :
    SameBut [.ctl, .store, .port, .outputs, .fill, .events] s (stallFill s).1 := by
  have hwithdraw : SameBut [.ctl] s s.withdrawChunk := by intro p hp; cases p <;> simp_all [Part.same]
  rcases stallFill_spec s with e | ⟨i, e⟩ <;> rw [e]
  · exact .refl _ s
  · exact (hwithdraw.mono (by simp)).trans ((failFill_frame i .dnStalled _).mono (by simp))

/-- The engine withdraws its request, nothing else of the controller changes (R123). -/
theorem stallFill_ctl (s : State) :
    { (stallFill s).1.ctl with loader := [], aging := 0 } = { s.ctl with loader := [], aging := 0 } := by
  rcases stallFill_spec s with e | ⟨i, e⟩
  · rw [e]
  · rw [e]; rfl

/-! ### The catalog loader at a stall (R130 step 5, R140) -/

/-- The catalog loader has a request in the loader: it is reading, not applying (R139, R140). -/
def Startup.ReadsCatalog (u : Startup) : Prop :=
  (∃ a bs, u.catalog = some ⟨a, .header bs⟩) ∨ ∃ a n h bs c, u.catalog = some ⟨a, .descriptors n h bs c⟩

theorem respondLong_frame (s : State) (phase : Phase) (st : Status) (p : List Byte) :
    SameBut [.mgmt] s (s.respondLong phase st p) := by
  unfold State.respondLong
  split
  · split
    · exact s.respond_frame _ _ _
    · exact .refl _ s
  · exact .refl _ s

/-- A catalog that is being read ends, in a stage other than CATALOG as CATALOG_LOAD's; one that is being applied, or
none, is left as it is. -/
theorem stallCatalog_spec {s : State} (h : s.startup.stage ≠ .catalog) :
    (¬ s.startup.ReadsCatalog ∧ stallCatalog s = s) ∨
    (s.startup.ReadsCatalog ∧ stallCatalog s =
      State.respondLong { s with startup := { s.startup with catalog := none } } .catalogLoad .linkStalled []) := by
  have hend : catalogEnd .stalled s =
      State.respondLong { s with startup := { s.startup with catalog := none } } .catalogLoad .linkStalled [] :=
    if_neg h
  unfold stallCatalog Startup.ReadsCatalog
  split
  · exact .inr ⟨.inl ⟨_, _, ‹_›⟩, hend⟩
  · exact .inr ⟨.inr ⟨_, _, _, _, _, ‹_›⟩, hend⟩
  · exact .inl ⟨by simp [*], rfl⟩
  · exact .inl ⟨by simp [*], rfl⟩

/-! ### A stall as a whole (R130, R136) -/

theorem stallClients_eq (uncertain : Option (Nat × Nat)) (s : State) : stallClients uncertain s =
    (flushLoader (stallFill (errorReadQueue s).1).1).post
      (.dnStalled uncertain s.port.readQueue.length (stallFill (errorReadQueue s).1).2) := rfl

/-- The link after a timeout, the write queue as the timeout leaves it, before the clients learn of the stall. -/
def State.timedOut (s : State) (left : List WriteEntry) : State :=
  { s with
    write := { s.write with queue := left }
    ctl := { s.ctl with link := .stalled, holder := .none, tx := none, busyTimer := none, expired := false } }

theorem State.timedOut_frame (s : State) (left : List WriteEntry) : SameBut [.write, .ctl] s (s.timedOut left) := by
  intro p hp; cases p <;> simp_all [Part.same, State.timedOut]

/-- The write that a timeout leaves uncertain and the write queue behind it: the IN_FLIGHT head at a busy timeout, none
at a reset poll's (R112, R136). -/
def State.TimesOut (s : State) (uncertain : Option (Nat × Nat)) (left : List WriteEntry) : Prop :=
  (∃ w, s.ctl.holder = .w ∧ s.write.queue = w :: left ∧ w.inFlight = true ∧
      uncertain = some (w.addr, w.data.length)) ∨
    (s.ctl.holder = .poll ∧ left = s.write.queue ∧ uncertain = none)

/-- A poll that answers busy with the flag set is a timeout (R129). -/
theorem endPoll_timeout {s : State} {d : Nat} {status : Byte} (hl : s.ctl.link = .busyWait)
    (htx : s.ctl.tx = some ⟨.readStatus, d⟩) (hb : status.getLsbD 0 = true) (he : s.ctl.expired = true)
    {uncertain : Option (Nat × Nat)} {left : List WriteEntry} (h : s.TimesOut uncertain left) :
    endPoll status s = stallClients uncertain (s.timedOut left) := by
  have hbusy : ¬ busyFlag status = false := by unfold busyFlag; rw [hb]; nofun
  have hend : endPoll status s = pollTimeout { s with ctl := { s.ctl with tx := none } } :=
    (if_pos ⟨hl, by rw [htx]; rfl⟩).trans ((if_neg hbusy).trans (if_pos he))
  rw [hend]
  unfold pollTimeout
  rcases h with ⟨w, hh, hq, hw, rfl⟩ | ⟨hh, rfl, rfl⟩
  · simp only [hh, busyTimeout, removeUncertain, State.stallLink_write, hq, hw, if_true]
    rfl
  · simp only [hh]
    rfl

/-- The taking of the reset poll's result finds nothing to take outside stage POLL (R145). -/
theorem pollTaken_notPoll {s : State} (h : s.startup.stage ≠ .poll) (ahead : List Byte) : pollTaken ahead s = s :=
  if_neg h

/-- A placed response is read off the management link before and after. -/
theorem Answered.congr {b : BufId} {st : Status} {p : List Byte} {s s' t t' : State} (h : Answered b st p s t)
    (hs : s'.mgmt = s.mgmt) (ht : t'.mgmt = t.mgmt) : Answered b st p s' t' := by
  unfold Answered
  rw [hs, ht]
  exact h

/-- The loader is empty and the aging count 0 (R130 step 5). -/
def State.loaderEmptied (s : State) : State := { s with ctl := { s.ctl with loader := [], aging := 0 } }

theorem flushLoader_eq (s : State) : flushLoader s = stallCatalog s.loaderEmptied := rfl

theorem State.loaderEmptied_frame (s : State) : SameBut [.ctl] s s.loaderEmptied := by
  intro p hp; cases p <;> simp_all [Part.same, State.loaderEmptied]

theorem flushLoader_frame {s : State} (h : s.startup.stage ≠ .catalog) :
    SameBut [.ctl, .startup, .mgmt] s (flushLoader s) ∧
      (flushLoader s).ctl = { s.ctl with loader := [], aging := 0 } := by
  have hctl := s.loaderEmptied_frame
  rw [flushLoader_eq]
  rcases stallCatalog_spec (s := s.loaderEmptied) h with ⟨-, e⟩ | ⟨-, e⟩ <;> rw [e]
  · exact ⟨hctl.mono (by simp), rfl⟩
  · have hcat := s.loaderEmptied.setCatalog_frame none
    have hresp := respondLong_frame
      { s.loaderEmptied with startup := { s.loaderEmptied.startup with catalog := none } } .catalogLoad .linkStalled []
    exact ⟨(hctl.mono (by simp)).trans ((hcat.mono (by simp)).trans (hresp.mono (by simp))),
      hresp .ctl (by decide)⟩

/-- What the flush does to a catalog: nothing where none is being read, else its end and CATALOG_LOAD's response. -/
theorem flushLoader_catalog {s : State} (h : s.startup.stage ≠ .catalog) :
    (¬ s.startup.ReadsCatalog → (flushLoader s).startup = s.startup ∧ (flushLoader s).mgmt = s.mgmt) ∧
    (s.startup.ReadsCatalog → (flushLoader s).startup = { s.startup with catalog := none } ∧
      ∀ b f q, s.mgmt.executor = .busy b .catalogLoad → s.mgmt.buf b = .executing f q →
        Answered b .linkStalled [] s (flushLoader s)) := by
  rw [flushLoader_eq]
  rcases stallCatalog_spec (s := s.loaderEmptied) h with ⟨hc, e⟩ | ⟨hc, e⟩ <;> rw [e]
  · exact ⟨fun _ => ⟨rfl, rfl⟩, fun h => absurd h hc⟩
  · refine ⟨fun h => absurd hc h, fun _ => ⟨?_, fun b f q he hb => ?_⟩⟩
    · exact respondLong_frame _ .catalogLoad .linkStalled [] .startup (by decide)
    · exact (respondLong_answered
        (s := { s.loaderEmptied with startup := { s.loaderEmptied.startup with catalog := none } })
        he hb .linkStalled []).1.congr rfl rfl

/-- What a stall's own event does for the clients but for the held reads of a failing fill: the frame, the link and the
catalog (R130, R136). -/
theorem stallClients_frame {s : State} (h : s.startup.stage ≠ .catalog) (uncertain : Option (Nat × Nat)) :
    SameBut [.ctl, .port, .outputs, .store, .fill, .events, .startup, .mgmt] s (stallClients uncertain s) ∧
    (stallClients uncertain s).ctl = { s.ctl with loader := [], aging := 0 } ∧
    (¬ s.startup.ReadsCatalog →
      (stallClients uncertain s).startup = s.startup ∧ (stallClients uncertain s).mgmt = s.mgmt) ∧
    (s.startup.ReadsCatalog → (stallClients uncertain s).startup = { s.startup with catalog := none } ∧
      ∀ b f q, s.mgmt.executor = .busy b .catalogLoad → s.mgmt.buf b = .executing f q →
        Answered b .linkStalled [] s (stallClients uncertain s)) := by
  have herr : SameBut [.port, .outputs] s (errorReadQueue s).1 := by
    intro p hp; cases p <;> simp_all [Part.same, errorReadQueue]
  have hfill := stallFill_frame (errorReadQueue s).1
  have hctl := stallFill_ctl (errorReadQueue s).1
  rw [stallClients_eq]
  generalize stallFill (errorReadQueue s).1 = v at hfill hctl
  have hv : SameBut [.ctl, .port, .outputs, .store, .fill, .events] s v.1 :=
    (herr.mono (by simp)).trans (hfill.mono (by simp))
  have hstartup : v.1.startup = s.startup := hv .startup (by decide)
  have hmgmt : v.1.mgmt = s.mgmt := hv .mgmt (by decide)
  have hstage : v.1.startup.stage ≠ .catalog := by rw [hstartup]; exact h
  obtain ⟨hflush, hflushCtl⟩ := flushLoader_frame hstage
  obtain ⟨hidle, hreads⟩ := flushLoader_catalog hstage
  rw [hstartup, hmgmt] at hidle hreads
  have hpost : SameBut [.events] (flushLoader v.1) ((flushLoader v.1).post
      (.dnStalled uncertain s.port.readQueue.length v.2)) := by
    intro p hp; cases p <;> simp_all [Part.same]
  refine ⟨(hv.mono (by simp)).trans ((hflush.mono (by simp)).trans (hpost.mono (by simp))), hflushCtl.trans hctl,
    hidle, fun hr => ?_⟩
  obtain ⟨hcat, hans⟩ := hreads hr
  exact ⟨hcat, fun b f q he hb => (hans b f q he hb).congr hmgmt.symm rfl⟩

/-- What the clients' part of a stall writes beside the link and the catalog is what the read queue and the fill engine
write, and DN_STALLED behind it (R130 steps 3 to 6). -/
theorem stallClients_parts {s : State} (h : s.startup.stage ≠ .catalog) (uncertain : Option (Nat × Nat))
    {v : State} {failed : Bool} (hv : stallFill (errorReadQueue s).1 = (v, failed)) :
    (stallClients uncertain s).store = v.store ∧ (stallClients uncertain s).fill = v.fill ∧
    (stallClients uncertain s).port = v.port ∧ (stallClients uncertain s).outputs = v.outputs ∧
    (stallClients uncertain s).events =
      v.events.post (.dnStalled uncertain s.port.readQueue.length failed) := by
  have hstage : v.startup.stage ≠ .catalog := by
    have hfill := stallFill_frame (errorReadQueue s).1 .startup (by decide)
    rw [hv] at hfill
    rw [show v.startup = s.startup from hfill]
    exact h
  obtain ⟨hflush, -⟩ := flushLoader_frame hstage
  rw [stallClients_eq, hv]
  exact ⟨hflush .store (by decide), hflush .fill (by decide), hflush .port (by decide), hflush .outputs (by decide),
    congrArg (EventQueue.post · _) (hflush .events (by decide))⟩

/-- The read queue and the fill engine leave the port's other fields alone (R66, R84). -/
theorem stallFill_port (s : State) : (stallFill (errorReadQueue s).1).1.port.readQueue = [] ∧
    (stallFill (errorReadQueue s).1).1.port.arrival = s.port.arrival ∧
    (stallFill (errorReadQueue s).1).1.port.looked = s.port.looked := by
  rcases stallFill_spec (errorReadQueue s).1 with e | ⟨i, e⟩ <;> rw [e] <;> exact ⟨rfl, rfl, rfl⟩

/-- Settles O39: the timeout (`endPoll_timeout`), then the read queue, the fill engine, the loader and DN_STALLED in
their order (`stallClients_frame`, `stallClients_parts`). -/
theorem stallsLink : Obligations.StallsLink := by
  intro s d status ahead taken uncertain left hl htx hb he hstage htaken h
  have hend := endPoll_timeout hl htx hb he h
  have hustage : (s.timedOut left).startup.stage ≠ .catalog := hstage
  obtain ⟨hframe, hctl, hidle, hreads⟩ := stallClients_frame hustage uncertain
  obtain ⟨-, -, hport, -, -⟩ := stallClients_parts hustage uncertain (Prod.eta _).symm
  obtain ⟨hqueue, harrival, hlooked⟩ := stallFill_port (s.timedOut left)
  have hnot : (stallClients uncertain (s.timedOut left)).startup.stage = s.startup.stage := by
    by_cases hr : s.startup.ReadsCatalog
    · rw [(hreads hr).1]; rfl
    · rw [(hidle hr).1]; rfl
  have hout := s.timedOut_frame left
  refine ⟨_, ?_, hframe .write (by decide), hctl, hport ▸ hqueue, hport ▸ harrival, hport ▸ hlooked,
    (hout.mono (by simp)).trans (hframe.mono (by simp)), fun hc => hidle ?_, fun b f q hc hx hf => ?_,
    fun hf => ?_, fun i o n c hf => ?_⟩
  · show Host.Outcome.next _ = _
    rw [hend]
    cases taken with
    | false => rfl
    | true => exact congrArg _ (pollTaken_notPoll (fun hp => nomatch htaken (hnot.symm.trans hp)) ahead)
  · rintro (⟨a, bs, hx⟩ | ⟨a, n, h, bs, c, hx⟩) <;> rcases hc with hc | ⟨_, _, _, _, hc⟩ <;>
      cases hx.symm.trans hc
  · obtain ⟨hcat, hans⟩ := hreads hc
    exact ⟨hcat, (hans b f q hx hf).congr rfl rfl⟩
  · obtain ⟨hst, hfi, hp, ho, hev⟩ := stallClients_parts hustage uncertain
      (stallFill_other (s := (errorReadQueue (s.timedOut left)).1) hf)
    refine ⟨hst, hfi, by rw [hp]; rfl, ho, ?_, hev⟩
    rw [hp]
    exact freeTags_eq _ _
  · obtain ⟨hst, hfi, hp, ho, hev⟩ := stallClients_parts hustage uncertain
      (stallFill_loading (s := (errorReadQueue (s.timedOut left)).1) hf)
    refine ⟨hst, hfi, ?_, ho, ?_, hev⟩
    · rw [hp]; exact s.port.dropHeld_held i
    · rw [hp]
      refine (Port.dropHeld_tags _ i).trans ?_
      show (freeTags _ _).filter _ = _
      rw [freeTags_eq, List.filter_filter]
      refine List.filter_congr fun g _ => ?_
      rw [Bool.and_comm, ← Bool.decide_and]
      rfl

end Sys2Proof.Machine
end

section
/-! PROOFS. The laws of the event queue (R172, R177), of the write queue (R108) and of the STALLED link (R121): what they
read of the state, and what an event must do to keep them. -/

namespace Sys2Proof.Machine

/-! ### The event queue (R172, R175, R177, R178) -/

/-- The law of the event queue, stated of the queue alone. -/
structure EventQueue.Law (q : EventQueue) : Prop where
  bounded : q.records.length ≤ 15
  oneLost : (q.records.filter EventRec.isLost).length ≤ 1
  lost : q.lost ≤ 255
  shown : 0 < q.lost → q.records ≠ []

theorem eventsLaw_iff (s : State) : EventsLaw s ↔ s.events.Law :=
  ⟨fun ⟨h1, h2, h3, h4⟩ => ⟨h1, h2, h3, h4⟩, fun ⟨h1, h2, h3, h4⟩ => ⟨h1, h2, h3, h4⟩⟩

/-- An event that a block posts: any but the queue's own EVENTS_LOST (R173, R177). -/
def Event.Posted (e : Event) : Prop := ∀ n, e ≠ .eventsLost n

theorem Event.Posted.isLost {e : Event} (h : e.Posted) (q : BitVec 8) : EventRec.isLost ⟨e, q⟩ = false := by
  cases e with
  | eventsLost n => exact absurd rfl (h n)
  | _ => rfl

/-- A post keeps the law: it stores the event where there is room, and counts one lost only of a queue that holds
records (R175). -/
theorem EventQueue.Law.post {q : EventQueue} (h : q.Law) {e : Event} (he : e.Posted) : (q.post e).Law := by
  obtain ⟨hbound, hone, hlost, hshown⟩ := h
  obtain ⟨-, ⟨hnone, hroom, hr, hl⟩ | ⟨hfull, hr, hl⟩⟩ := q.post_spec e
  · refine ⟨?_, ?_, ?_, fun h => ?_⟩
    · rw [hr, List.length_append, List.length_singleton]; omega
    · rw [hr, List.filter_append, List.filter_singleton, he.isLost]; simpa using hone
    · rw [hl]; omega
    · rw [hl] at h; omega
  · refine ⟨hr ▸ hbound, hr ▸ hone, by rw [hl]; omega, fun _ => ?_⟩
    rw [hr]
    by_cases hnone : q.lost = 0
    · exact List.ne_nil_of_length_pos (by have := not_and.mp hfull hnone; omega)
    · exact hshown (Nat.pos_of_ne_zero hnone)

theorem EventQueue.Law.postAll {q : EventQueue} (h : q.Law) {es : List Event} (he : ∀ e ∈ es, e.Posted) :
    (q.postAll es).Law := by
  induction es generalizing q with
  | nil => exact h
  | cons e es ih =>
    exact ih (h.post (he e (List.mem_cons_self ..))) fun x hx => he x (List.mem_cons_of_mem e hx)

/-- EVENTS_LOST is appended exactly where records are lost and none stands in the queue yet (R177). -/
theorem EventQueue.appendLost_spec (q : EventQueue) :
    (0 < q.lost ∧ (∀ r ∈ q.records, EventRec.isLost r = false) ∧ q.appendLost =
      { records := q.records ++ [⟨.eventsLost q.lost, q.seq⟩], lost := 0, seq := q.seq + 1 }) ∨
    ((q.lost = 0 ∨ ∃ r ∈ q.records, EventRec.isLost r = true) ∧ q.appendLost = q) := by
  unfold EventQueue.appendLost
  split
  · rename_i h
    exact .inl ⟨h.1, by simpa using h.2, rfl⟩
  · rename_i h
    refine .inr ⟨?_, rfl⟩
    rcases Nat.eq_zero_or_pos q.lost with h0 | h0
    · exact .inl h0
    · exact .inr (by simpa using not_and.mp h h0)

/-- A read of at least one record keeps the law: it makes the room that EVENTS_LOST takes (R178). -/
theorem EventQueue.Law.take {q : EventQueue} (h : q.Law) {max : Nat} (hm : 1 ≤ max) : (q.take max).1.Law := by
  obtain ⟨hbound, hone, hlost, -⟩ := h
  have hlen : (q.records.drop max).length ≤ 14 := by rw [List.length_drop]; omega
  have hfilter : ((q.records.drop max).filter EventRec.isLost).length ≤ 1 :=
    (((List.drop_sublist max q.records).filter _).length_le).trans hone
  unfold EventQueue.take
  dsimp only
  rcases EventQueue.appendLost_spec { q with records := q.records.drop max } with ⟨-, hno, e⟩ | ⟨hkept, e⟩ <;>
    rw [e]
  · refine ⟨?_, ?_, Nat.zero_le _, nofun⟩
    · rw [List.length_append, List.length_singleton]; dsimp only; omega
    · have hnil : (q.records.drop max).filter EventRec.isLost = [] :=
        List.filter_eq_nil_iff.mpr fun r hr => by simp [hno r hr]
      rw [List.filter_append, hnil]
      exact List.length_filter_le ..
  · refine ⟨by dsimp only; omega, hfilter, hlost, fun h => ?_⟩
    rcases hkept with h0 | ⟨r, hr, -⟩
    · exact absurd h (by rw [h0]; exact Nat.lt_irrefl 0)
    · exact List.ne_nil_of_mem hr

/-- An allocation posts evictions alone (R38). -/
theorem Store.evictUntil_posted (n : Nat) (cause : SegId) (is : List SegId) (st : Store) :
    ∀ e ∈ (Store.evictUntil n cause is st).2, e.Posted := by
  induction is generalizing st with
  | nil => nofun
  | cons i is ih =>
    simp only [Store.evictUntil]
    split
    · nofun
    · intro e he
      rcases List.mem_cons.mp he with rfl | he
      · nofun
      · exact ih _ e he

theorem Store.allocate_posted {st st' : Store} {n : Nat} {cause : SegId} {bs : List Block} {evs : List Event}
    (h : st.allocate n cause = some (bs, st', evs)) : ∀ e ∈ evs, e.Posted := by
  obtain ⟨-, st1, he, -⟩ := Store.allocate_some h
  have hp := Store.evictUntil_posted n cause st.candidates st
  rwa [he] at hp

/-! ### The three laws across an event -/

/-- All that the three laws read: the event queue, the write queue, the link state and the transaction on the link. -/
structure QueueView where
  events : EventQueue
  writes : List WriteEntry
  link : LinkState
  tx : Option Transaction

def State.queueView (s : State) : QueueView := ⟨s.events, s.write.queue, s.ctl.link, s.ctl.tx⟩

/-- An event keeps the laws of the event queue, the write queue and the STALLED link. -/
structure KeepsQueueLaws (s t : State) : Prop where
  events : EventsLaw s → EventsLaw t
  writes : s.write.queue.length ≤ 8 → t.write.queue.length ≤ 8
  stalled : StalledLaw s → StalledLaw t

theorem KeepsQueueLaws.refl (s : State) : KeepsQueueLaws s s := ⟨id, id, id⟩

theorem KeepsQueueLaws.trans {s t u : State} (h : KeepsQueueLaws s t) (h' : KeepsQueueLaws t u) :
    KeepsQueueLaws s u := ⟨h'.events ∘ h.events, h'.writes ∘ h.writes, h'.stalled ∘ h.stalled⟩

/-- Posts of blocks' events, all else that the laws read left alone (R175). -/
theorem KeepsQueueLaws.of_postAll {s t : State} {es : List Event} (he : ∀ e ∈ es, e.Posted)
    (h : t.queueView = { s.queueView with events := s.events.postAll es }) : KeepsQueueLaws s t := by
  simp only [State.queueView, QueueView.mk.injEq] at h
  obtain ⟨hev, hw, hl, ht⟩ := h
  refine ⟨fun hs => ?_, fun hs => hw ▸ hs, fun hs => ?_⟩
  · rw [eventsLaw_iff] at hs ⊢
    rw [hev]
    exact hs.postAll he
  · unfold StalledLaw
    rw [hl, ht]
    exact hs

theorem KeepsQueueLaws.of_post {s t : State} {e : Event}
    (h : t.queueView = { s.queueView with events := s.events.post e }) (he : e.Posted) : KeepsQueueLaws s t :=
  .of_postAll (es := [e]) (by simpa using he) h

theorem KeepsQueueLaws.of_view {s t : State} (h : t.queueView = s.queueView) : KeepsQueueLaws s t :=
  .of_postAll (es := []) nofun h

/-- What comes after an event that the laws do not see. -/
theorem KeepsQueueLaws.after {s s' t : State} (h : KeepsQueueLaws s' t) (hv : s'.queueView = s.queueView) :
    KeepsQueueLaws s t := (KeepsQueueLaws.of_view hv).trans h

theorem SameBut.queueView {ps : List Part} {s t : State} (h : SameBut ps s t) (he : .events ∉ ps) (hw : .write ∉ ps)
    (hc : .ctl ∉ ps) : t.queueView = s.queueView := by
  have he : t.events = s.events := h .events he
  have hw : t.write = s.write := h .write hw
  have hc : t.ctl = s.ctl := h .ctl hc
  unfold State.queueView
  rw [he, hw, hc]

/-- The write queue changes within its bound (R108). -/
theorem KeepsQueueLaws.of_writes {s t : State} (hw : s.write.queue.length ≤ 8 → t.write.queue.length ≤ 8)
    (h : t.queueView = { s.queueView with writes := t.write.queue }) : KeepsQueueLaws s t := by
  have hv : KeepsQueueLaws { s with write := { s.write with queue := t.write.queue } } t := .of_view h
  exact ⟨hv.events, hw, hv.stalled⟩

/-- The link and its transaction change, the link not to STALLED, or the transaction to none or a status poll (R121). -/
theorem KeepsQueueLaws.of_link {s t : State} (he : t.events = s.events)
    (hw : t.write.queue.length ≤ s.write.queue.length)
    (hl : t.ctl.link ≠ .stalled ∨ t.ctl.tx = none ∨ ∃ d, t.ctl.tx = some ⟨.readStatus, d⟩) : KeepsQueueLaws s t where
  events h := by unfold EventsLaw; rw [he]; exact h
  writes h := hw.trans h
  stalled _ hst := hl.resolve_left fun hn => hn hst

end Sys2Proof.Machine
end

section
/-! PROOFS. Every command keeps the laws of the event queue, the write queue and the STALLED link: one lemma per
operation, then one per command. Most operations are seen by these laws only through the events they post. -/

namespace Sys2Proof.Machine

/-! ### Host presentations -/

theorem requestFill_queueView (s : State) (i : SegId) : (s.requestFill i).queueView = s.queueView := by
  unfold State.requestFill
  split <;> rfl

theorem refuseRead_keepsQueueLaws (q : ReadRequest) (reason : AccessFault) (seg : Option SegId) (s : State) :
    KeepsQueueLaws s (refuseRead q reason seg s) := .of_post rfl nofun

theorem readDownstream_keepsQueueLaws (q : ReadRequest) (seg request : Option SegId) (s : State) :
    KeepsQueueLaws s (readDownstream q seg request s) := by
  unfold readDownstream
  split
  · exact refuseRead_keepsQueueLaws ..
  · split
    · exact refuseRead_keepsQueueLaws ..
    · split
      · exact .of_view (requestFill_queueView (s.admitRead q) _)
      · exact .of_view rfl

theorem parkRead_queueView (q : ReadRequest) (x : Hit) (absent : Bool) (s : State) :
    (parkRead q x absent s).queueView = s.queueView := by
  by_cases hfull : 8 ≤ s.port.held.length ∨ (absent = true ∧ 8 ≤ s.fill.queue.length)
  · rw [parkRead_full hfull]; rfl
  · rw [parkRead_room hfull]
    cases absent <;> rfl

theorem routeHit_keepsQueueLaws (q : ReadRequest) (x : Hit) (s : State) : KeepsQueueLaws s (routeHit q x s) := by
  unfold routeHit
  split
  · exact readDownstream_keepsQueueLaws ..
  · split
    · exact .of_view rfl
    · exact .of_view (parkRead_queueView ..)
    · exact refuseRead_keepsQueueLaws ..
    · exact .of_view (parkRead_queueView ..)
    · exact readDownstream_keepsQueueLaws ..
    · exact readDownstream_keepsQueueLaws ..
    · exact readDownstream_keepsQueueLaws ..
    · exact refuseRead_keepsQueueLaws ..

theorem acceptRead_keepsQueueLaws (q : ReadRequest) {onHit : Hit → State → State} {s : State}
    (hh : ∀ x, KeepsQueueLaws s (onHit x s)) : KeepsQueueLaws s (acceptRead q onHit s) := by
  unfold acceptRead
  split
  · exact .of_view rfl
  · split
    · exact refuseRead_keepsQueueLaws ..
    · split
      · exact .of_view rfl
      · split
        · exact readDownstream_keepsQueueLaws ..
        · exact hh _

theorem presentRead_keepsQueueLaws (q : ReadRequest) (part : PresentPart) (s : State) :
    KeepsQueueLaws s (presentRead q part s) := by
  rcases presentRead_spec q part s with ⟨-, -, e⟩ | ⟨-, -, e⟩ | ⟨x, -, -, e⟩ | e <;> rw [e]
  · exact acceptRead_keepsQueueLaws q fun x => routeHit_keepsQueueLaws q x s
  · exact acceptRead_keepsQueueLaws q fun x => .of_view rfl
  · exact (routeHit_keepsQueueLaws q x (s.setLooked none)).after rfl
  · exact .refl s

theorem refuseWrite_keepsQueueLaws (addr len : Nat) (reason : AccessFault) (seg : Option SegId) (s : State) :
    KeepsQueueLaws s (refuseWrite addr len reason seg s) := .of_post rfl nofun

/-- A write is admitted only where the write queue has room (R109). -/
theorem admitWrite_keepsQueueLaws (addr : Nat) (data : List Byte) (seg : Option SegId) (s : State) :
    KeepsQueueLaws s (admitWrite addr data seg s) := by
  unfold admitWrite
  split
  · exact refuseWrite_keepsQueueLaws ..
  · split
    · exact refuseWrite_keepsQueueLaws ..
    · split
      · exact .of_view rfl
      · rename_i hroom
        refine .of_writes (fun _ => ?_) rfl
        have hlt : s.write.queue.length < 8 := Nat.lt_of_not_le (not_or.mp hroom).1
        dsimp only
        rw [List.length_append, List.length_singleton]
        exact hlt

theorem routeWriteHit_keepsQueueLaws (addr : Nat) (data : List Byte) (x : Hit) (s : State) :
    KeepsQueueLaws s (routeWriteHit addr data x s) := by
  unfold routeWriteHit
  split
  · exact .of_view rfl
  · exact admitWrite_keepsQueueLaws ..
  · unfold shadowWrite
    split
    · split
      · exact .of_view rfl
      · exact refuseWrite_keepsQueueLaws ..
    · exact refuseWrite_keepsQueueLaws ..
  · exact refuseWrite_keepsQueueLaws ..

theorem lookWriteHit_keepsQueueLaws (addr : Nat) (data : List Byte) (x : Hit) (s : State) :
    KeepsQueueLaws s (lookWriteHit addr data x s) := by
  unfold lookWriteHit
  split
  · exact .of_view rfl
  · exact routeWriteHit_keepsQueueLaws ..

theorem acceptWrite_keepsQueueLaws (addr : Nat) (data : List Byte) {onHit : Hit → State → State} {s : State}
    (hh : ∀ x, KeepsQueueLaws s (onHit x s)) : KeepsQueueLaws s (acceptWrite addr data onHit s) := by
  unfold acceptWrite
  split
  · exact .of_view rfl
  · split
    · exact refuseWrite_keepsQueueLaws ..
    · split
      · exact admitWrite_keepsQueueLaws ..
      · exact hh _

theorem presentWrite_keepsQueueLaws (addr : Nat) (data : List Byte) (part : PresentPart) (s : State) :
    KeepsQueueLaws s (presentWrite addr data part s) := by
  rcases presentWrite_spec addr data part s with ⟨-, -, e⟩ | ⟨-, -, e⟩ | ⟨x, -, -, e⟩ | e <;> rw [e]
  · exact acceptWrite_keepsQueueLaws addr data fun x => routeWriteHit_keepsQueueLaws ..
  · exact acceptWrite_keepsQueueLaws addr data fun x => lookWriteHit_keepsQueueLaws ..
  · exact (routeWriteHit_keepsQueueLaws addr data x (s.setLooked none)).after rfl
  · exact .refl s

/-! ### Fills -/

theorem failFill_keepsQueueLaws (i : SegId) (reason : FailReason) (s : State) :
    KeepsQueueLaws s (failFill i reason s) := .of_post rfl nofun

theorem completeFill_keepsQueueLaws (i : SegId) (origin : Origin) (s : State) :
    KeepsQueueLaws s (completeFill i origin s) := .of_post rfl nofun

theorem undoFill_keepsQueueLaws (i : SegId) (prior : Prior) (s : State) :
    KeepsQueueLaws s (undoFill i prior s).1 := by
  unfold undoFill
  dsimp only
  split
  · exact .of_view rfl
  · split
    · exact .of_view rfl
    · exact .of_post rfl nofun

/-- An arrival at the loader leaves the link and its transaction alone (R123). -/
theorem Controller.arrive_link (c : Controller) (size : Nat) (r : Requester) (a n : Nat) :
    (c.arrive size r a n).2.link = c.link ∧ (c.arrive size r a n).2.tx = c.tx := by
  rw [c.arrive_loader]; exact ⟨rfl, rfl⟩

theorem State.setCtl_queueView {s : State} {c : Controller} (h : c.link = s.ctl.link ∧ c.tx = s.ctl.tx) :
    State.queueView { s with ctl := c } = s.queueView := by
  unfold State.queueView
  rw [← h.1, ← h.2]

theorem requestChunk_queueView (s : State) : s.requestChunk.queueView = s.queueView := by
  unfold State.requestChunk
  split
  case h_1 => exact State.setCtl_queueView (s.ctl.arrive_link ..)
  all_goals rfl

/-- The evictions that make room for a fill are posted (R38). -/
theorem enterFilling_keepsQueueLaws {s : State} {i : SegId} {n : Nat} {bs : List Block} {st : Store}
    {evs : List Event} (h : s.store.allocate n i = some (bs, st, evs)) (origin : Origin) :
    KeepsQueueLaws s (s.enterFilling i origin bs st evs) := .of_postAll (Store.allocate_posted h) rfl

theorem startCatalogFill_keepsQueueLaws (i : SegId) (r : SegRecord) (image : Nat) (origin : Origin) (s : State) :
    KeepsQueueLaws s (startCatalogFill i r image origin s) := by
  unfold startCatalogFill
  split
  · exact failFill_keepsQueueLaws ..
  · split
    · exact failFill_keepsQueueLaws ..
    · split
      · exact failFill_keepsQueueLaws ..
      · exact (enterFilling_keepsQueueLaws ‹_› origin).trans (.of_view (requestChunk_queueView _))

theorem takeHead_keepsQueueLaws (s : State) : KeepsQueueLaws s (takeHead s) := by
  unfold takeHead
  split
  · dsimp only
    split
    · split
      · exact .of_post rfl nofun
      · exact (startCatalogFill_keepsQueueLaws ..).after rfl
    · exact .of_view rfl
  · exact .refl s

theorem beginHostFill_keepsQueueLaws (i : SegId) (origin : Origin) (s : State) :
    KeepsQueueLaws s (beginHostFill i origin s).state := by
  unfold beginHostFill
  dsimp only
  split
  · exact failFill_keepsQueueLaws ..
  · exact (enterFilling_keepsQueueLaws ‹_› origin).trans (.of_view rfl)

theorem chunkArrived_keepsQueueLaws (data : List Byte) (s : State) : KeepsQueueLaws s (chunkArrived data s).1 := by
  unfold chunkArrived
  split
  · dsimp only
    split
    · exact .of_view (requestChunk_queueView _)
    · split
      · exact (completeFill_keepsQueueLaws ..).after rfl
      · exact (failFill_keepsQueueLaws ..).after rfl
  all_goals exact .refl s

theorem stallFill_keepsQueueLaws (s : State) : KeepsQueueLaws s (stallFill s).1 := by
  rcases stallFill_spec s with e | ⟨i, e⟩ <;> rw [e]
  · exact .refl s
  · exact (failFill_keepsQueueLaws i .dnStalled s.withdrawChunk).after rfl

/-! ### Catalog loader and start-up sequencer -/

theorem setOutcome_queueView (s : State) (o : StartOutcome) : (s.setOutcome o).queueView = s.queueView := by
  rw [State.setOutcome_eq]; rfl

theorem endStartup_keepsQueueLaws (s : State) : KeepsQueueLaws s (endStartup s) := .of_post rfl nofun

theorem beginStartup_keepsQueueLaws (s : State) : KeepsQueueLaws s (beginStartup s) := by
  rw [beginStartup_eq]
  cases s.pins.bootEn with
  | true => exact .of_view rfl
  | false => exact .of_post rfl nofun

theorem mapEvent_queueView (s : State) : (mapEvent s).queueView = s.queueView := by
  unfold mapEvent
  split
  · exact (writeBootEntry_frame s _).queueView (by decide) (by decide) (by decide)
  · rfl

theorem requestPreload_keepsQueueLaws (id : Byte) (s : State) : KeepsQueueLaws s (requestPreload id s).1 := by
  unfold requestPreload
  split
  · exact .refl s
  · split
    · exact .refl s
    · split
      · exact .refl s
      · exact startCatalogFill_keepsQueueLaws ..
      · exact startCatalogFill_keepsQueueLaws ..
      · exact .refl s

theorem preloadEvent_keepsQueueLaws (s : State) : KeepsQueueLaws s (preloadEvent s) := by
  unfold preloadEvent
  split
  · split
    · rename_i id _ _
      have hr := requestPreload_keepsQueueLaws id s
      split <;> rename_i e <;> rw [e] at hr
      · exact hr.trans (.of_view rfl)
      · exact hr
    · exact .of_view rfl
  · exact .refl s

theorem sequencerEvent_keepsQueueLaws (s : State) : KeepsQueueLaws s (sequencerEvent s) := by
  rcases sequencerEvent_spec s with ⟨-, e⟩ | ⟨-, e⟩ | ⟨-, -, e⟩ | ⟨-, -, e⟩ | ⟨-, -, -, e⟩ <;> rw [e]
  · exact .of_view (mapEvent_queueView s)
  · exact preloadEvent_keepsQueueLaws s
  · exact endStartup_keepsQueueLaws s
  · exact .of_view ((commitStartup_frame s).queueView (by decide) (by decide) (by decide))
  · exact .refl s

theorem respondLong_queueView (s : State) (phase : Phase) (st : Status) (p : List Byte) :
    (s.respondLong phase st p).queueView = s.queueView :=
  (respondLong_frame s phase st p).queueView (by decide) (by decide) (by decide)

theorem catalogEnd_queueView (result : CatalogResult) (s : State) :
    (catalogEnd result s).queueView = s.queueView := by
  unfold catalogEnd
  dsimp only
  split
  · split
    · rfl
    all_goals exact setOutcome_queueView { s with startup := { s.startup with catalog := none } } .badCatalog
  · split <;> exact respondLong_queueView ..

theorem requestCatalog_queueView (s : State) : (requestCatalog s).queueView = s.queueView := by
  unfold requestCatalog
  split
  · rename_i c _
    have hl := s.ctl.arrive_link s.memSize .catalog c.next (windowPart c.next (c.next + c.phase.missing))
    split
    · rename_i e
      rw [e] at hl
      exact State.setCtl_queueView hl
    · exact catalogEnd_queueView ..
    · exact catalogEnd_queueView ..
  · rfl

theorem readCatalog_queueView (c : CatalogRead) (s : State) : (readCatalog c s).queueView = s.queueView :=
  requestCatalog_queueView _

theorem applyDescriptor_keepsQueueLaws (acc : State × Nat × Nat) (bs : List Byte) :
    KeepsQueueLaws acc.1 (applyDescriptor acc bs).1 := by
  obtain ⟨s, m, k⟩ := acc
  unfold applyDescriptor
  dsimp only
  split
  · exact .of_post rfl nofun
  · split
    · exact .of_post rfl nofun
    · split
      · exact .of_view rfl
      · exact .of_post rfl nofun

theorem applyNext_keepsQueueLaws (s : State) : KeepsQueueLaws s (applyNext s) := by
  unfold applyNext
  split
  · rename_i next d rest m k _
    have hd := applyDescriptor_keepsQueueLaws (s, m, k) d
    split <;> rename_i e _ <;> rw [e] at hd
    · exact hd.trans (.of_view (catalogEnd_queueView ..))
    · exact hd.trans (.of_view rfl)
  · exact .of_view (catalogEnd_queueView ..)
  all_goals exact .refl s

theorem nextEvent_keepsQueueLaws (s : State) : KeepsQueueLaws s (nextEvent s) := by
  rcases nextEvent_spec s with ⟨_, _, _, _, -, e⟩ | ⟨-, e⟩ <;> rw [e]
  · exact applyNext_keepsQueueLaws s
  · exact sequencerEvent_keepsQueueLaws s

theorem goOn_keepsQueueLaws (n : Nat) (s : State) : KeepsQueueLaws s (goOn n s) := by
  induction n generalizing s with
  | zero => exact .refl s
  | succ n ih => exact (nextEvent_keepsQueueLaws s).trans (ih _)

theorem catalogArrived_queueView (data : List Byte) (s : State) :
    (catalogArrived data s).queueView = s.queueView := by
  unfold catalogArrived headerArrived descriptorsArrived
  split
  · dsimp only
    split
    · exact readCatalog_queueView ..
    · split
      · exact catalogEnd_queueView ..
      · split
        · exact catalogEnd_queueView ..
        · exact readCatalog_queueView ..
  · dsimp only
    split
    · exact readCatalog_queueView ..
    · split
      · rfl
      · exact catalogEnd_queueView ..
  all_goals rfl

theorem requestBoot_queueView (ahead : List Byte) (s : State) : (requestBoot ahead s).queueView = s.queueView := by
  cases h : s.startup.bootRead with
  | none => unfold requestBoot; rw [h]
  | some r => rw [requestBoot_eq h]; exact State.setCtl_queueView (s.ctl.arrive_link ..)

theorem stageCatalog_queueView (r : BootRecord) (s : State) : (stageCatalog r s).queueView = s.queueView := by
  unfold stageCatalog
  dsimp only
  split
  · exact readCatalog_queueView ..
  · rfl

theorem bootArrived_keepsQueueLaws (data ahead : List Byte) (s : State) :
    KeepsQueueLaws s (bootArrived data ahead s) := by
  unfold bootArrived
  split
  · split
    · exact .of_view (requestBoot_queueView ..)
    · exact (endStartup_keepsQueueLaws _).after (setOutcome_queueView ..)
    · exact .of_view (stageCatalog_queueView ..)
  · exact .refl s

theorem pollTaken_keepsQueueLaws (ahead : List Byte) (s : State) : KeepsQueueLaws s (pollTaken ahead s) := by
  rcases pollTaken_spec ahead s with ⟨-, -, e⟩ | ⟨-, -, e⟩ | ⟨-, e⟩ <;> rw [e]
  · exact .of_view (requestBoot_queueView ..)
  · exact (endStartup_keepsQueueLaws _).after (setOutcome_queueView ..)
  · exact .refl s

theorem preloadEnded_keepsQueueLaws (failed : Bool) (taken : Nat) (s : State) :
    KeepsQueueLaws s (preloadEnded failed taken s) := by
  rcases preloadEnded_spec failed taken s with ⟨-, e⟩ | ⟨-, e⟩ <;> rw [e]
  · exact (goOn_keepsQueueLaws ..).after rfl
  · exact .refl s

/-! ### The serial link -/

theorem deliverLoader_keepsQueueLaws (q : LoaderRequest) (data ahead : List Byte) (taken : Nat) (s : State) :
    KeepsQueueLaws s (deliverLoader q data ahead taken s) := by
  unfold deliverLoader
  split
  · exact .refl s
  · split
    · have hc := chunkArrived_keepsQueueLaws data s
      split <;> rename_i e <;> rw [e] at hc
      · exact hc
      · exact hc.trans (preloadEnded_keepsQueueLaws ..)
      · exact hc.trans (preloadEnded_keepsQueueLaws ..)
    · exact (goOn_keepsQueueLaws ..).after (catalogArrived_queueView ..)
    · exact (bootArrived_keepsQueueLaws data ahead s).trans (goOn_keepsQueueLaws ..)

/-- The end of a READ leaves no transaction on the link (R127). -/
theorem completeRead_keepsQueueLaws (data : List Byte) (s : State) : KeepsQueueLaws s (completeRead data s) := by
  unfold completeRead
  split <;> exact .of_link rfl (Nat.le_refl _) (.inr (.inl rfl))

theorem completeLoader_keepsQueueLaws (data ahead : List Byte) (taken : Nat) (s : State) :
    KeepsQueueLaws s (completeLoader data ahead taken s) := by
  have hfree : KeepsQueueLaws s s.freeLink := .of_link rfl (Nat.le_refl _) (.inr (.inl rfl))
  unfold completeLoader
  split
  · exact hfree.trans ((deliverLoader_keepsQueueLaws ..).after rfl)
  · exact hfree

theorem endRead_keepsQueueLaws (data ahead : List Byte) (taken : Nat) (s : State) :
    KeepsQueueLaws s (endRead data ahead taken s) := by
  unfold endRead
  split
  · split
    · split
      · exact completeRead_keepsQueueLaws ..
      · exact completeLoader_keepsQueueLaws ..
      all_goals exact .refl s
    · exact .refl s
  all_goals exact .refl s

/-- The arbiter grants only while the link is READY (R124). -/
theorem arbiterGrant_ready {s : State} {c : Client} (h : arbiterGrant s = some c) : s.ctl.link = .ready := by
  unfold arbiterGrant at h
  split at h
  · rename_i hl; exact hl.1
  · cases h

/-- A grant begins a transaction on a READY link and lets no entry into the write queue (R111, R124). -/
theorem execArbiterChoice_keepsQueueLaws (s : State) : Leads (KeepsQueueLaws s) (execArbiterChoice s) := by
  have hup : ∀ c, arbiterGrant s = some c → s.ctl.link ≠ .stalled := fun c h => by
    rw [arbiterGrant_ready h]; nofun
  unfold execArbiterChoice
  split
  · unfold grantRead
    split
    · exact .next (.of_link rfl (Nat.le_refl _) (.inl (hup _ ‹_›)))
    · exact .next (.refl s)
  · unfold grantWrite
    split
    · rename_i hq
      refine .next (.of_link rfl ?_ (.inl (hup _ ‹_›)))
      rw [hq]; exact Nat.le_refl _
    · exact .next (.refl s)
  · unfold grantLoader
    split
    · exact .next (.of_link rfl (Nat.le_refl _) (.inl (hup _ ‹_›)))
    · exact .next (.refl s)
  · exact .next (.refl s)

/-- A WRITE_ENABLE is not on a STALLED link, so neither is the WRITE behind it (R121, R128). -/
theorem execWriteEnableEnd_keepsQueueLaws (s : State) : Leads (KeepsQueueLaws s) (execWriteEnableEnd s) := by
  unfold execWriteEnableEnd
  split
  · rename_i htx _
    refine .next ⟨id, id, fun hs hl => ?_⟩
    rcases hs hl with h | ⟨d, h⟩ <;> rw [htx] at h <;> cases h
  · exact .next (.refl s)

theorem execWriteTransactionEnd_keepsQueueLaws (s : State) :
    Leads (KeepsQueueLaws s) (execWriteTransactionEnd s) := by
  unfold execWriteTransactionEnd
  split
  · exact .next (.of_link rfl (Nat.le_refl _) (.inl nofun))
  all_goals exact .next (.refl s)

theorem execPollStart_keepsQueueLaws (s : State) : Leads (KeepsQueueLaws s) (execPollStart s) := by
  unfold execPollStart
  split
  · exact .next (.of_link rfl (Nat.le_refl _) (.inr (.inr ⟨_, rfl⟩)))
  · exact .next (.refl s)

theorem stallCatalog_queueView (s : State) : (stallCatalog s).queueView = s.queueView := by
  unfold stallCatalog
  split
  · exact catalogEnd_queueView ..
  · exact catalogEnd_queueView ..
  all_goals rfl

theorem stallClients_keepsQueueLaws (uncertain : Option (Nat × Nat)) (s : State) :
    KeepsQueueLaws s (stallClients uncertain s) := by
  have hflush : ∀ u : State, KeepsQueueLaws u (flushLoader u) := fun u => .of_view (stallCatalog_queueView _)
  have herr : KeepsQueueLaws s (errorReadQueue s).1 := .of_view rfl
  rw [stallClients_eq]
  exact herr.trans ((stallFill_keepsQueueLaws _).trans ((hflush _).trans (.of_post rfl nofun)))

/-- The uncertain write leaves the queue (R112). -/
theorem removeUncertain_keepsQueueLaws (s : State) : KeepsQueueLaws s (removeUncertain s).1 := by
  unfold removeUncertain
  split
  · rename_i w rest hq
    split
    · exact .of_writes (fun h => by rw [hq] at h; exact Nat.le_of_succ_le h) rfl
    · exact .refl s
  · exact .refl s

/-- A timeout finds no transaction on the link, so the link may become STALLED (R121, R130, R136). -/
theorem pollTimeout_keepsQueueLaws {s : State} (h : s.ctl.tx = none) : KeepsQueueLaws s (pollTimeout s) := by
  have hstall : KeepsQueueLaws s s.stallLink := .of_link rfl (Nat.le_refl _) (.inr (.inl h))
  unfold pollTimeout
  split
  · exact hstall.trans ((removeUncertain_keepsQueueLaws _).trans (stallClients_keepsQueueLaws ..))
  · exact hstall.trans (stallClients_keepsQueueLaws ..)
  all_goals exact .refl s

/-- A poll that answers not busy leaves the link READY (R129). -/
theorem pollComplete_keepsQueueLaws (s : State) : KeepsQueueLaws s (pollComplete s) := by
  unfold pollComplete
  split
  · exact .of_link rfl (by dsimp only; rw [List.length_tail]; exact Nat.sub_le _ _) (.inl nofun)
  all_goals exact .of_link rfl (Nat.le_refl _) (.inl nofun)

theorem endPoll_keepsQueueLaws (status : Byte) (s : State) : KeepsQueueLaws s (endPoll status s) := by
  have hended : KeepsQueueLaws s { s with ctl := { s.ctl with tx := none } } :=
    .of_link rfl (Nat.le_refl _) (.inr (.inl rfl))
  unfold endPoll
  split
  · refine hended.trans ?_
    dsimp only
    split
    · exact pollComplete_keepsQueueLaws _
    · split
      · exact pollTimeout_keepsQueueLaws rfl
      · exact .refl _
  · exact .refl s

theorem execPollEnd_keepsQueueLaws (status : PollAnswer) (s : State) :
    Leads (KeepsQueueLaws s) (execPollEnd status s) := by
  cases status with
  | ends status ahead taken =>
    refine .next ?_
    split
    · exact (endPoll_keepsQueueLaws ..).trans (pollTaken_keepsQueueLaws ..)
    · exact endPoll_keepsQueueLaws ..
  | taken ahead => exact .next (pollTaken_keepsQueueLaws ..)

/-- The recovery poll is a status poll (R121, R133). -/
theorem execLinkRecover_keepsQueueLaws (s : State) : Leads (KeepsQueueLaws s) (execLinkRecover s) := by
  unfold execLinkRecover
  split
  · split
    · exact .next (.of_link rfl (Nat.le_refl _) (.inr (.inr ⟨_, rfl⟩)))
    · exact .next (.of_view rfl)
  · exact .next (.refl s)

theorem execLinkRecoverPollEnd_keepsQueueLaws (status : Byte) (s : State) :
    Leads (KeepsQueueLaws s) (execLinkRecoverPollEnd status s) := by
  have hfree : KeepsQueueLaws s s.freeLink := .of_link rfl (Nat.le_refl _) (.inr (.inl rfl))
  have hready : KeepsQueueLaws s { s.freeLink with ctl := { s.freeLink.ctl with link := .ready } } :=
    .of_link rfl (Nat.le_refl _) (.inr (.inl rfl))
  unfold execLinkRecoverPollEnd
  split
  · split
    · exact .next (hfree.trans (.of_view (respondLong_queueView ..)))
    · exact .next (hready.trans (.of_view (respondLong_queueView ..)))
  · exact .next (.refl s)

/-! ### Owners of management commands

Most owners change nothing that these laws read. -/

theorem ownMapWrite_queueView (p : List Byte) (s : State) : (ownMapWrite p s).state.queueView = s.queueView := by
  unfold ownMapWrite
  split <;> rfl

theorem ownMapClear_queueView (p : List Byte) (s : State) : (ownMapClear p s).state.queueView = s.queueView := by
  unfold ownMapClear
  split
  · rfl
  · split <;> rfl

theorem ownMapRead_queueView (p : List Byte) (s : State) : (ownMapRead p s).state.queueView = s.queueView := by
  unfold ownMapRead
  split
  · split <;> rfl
  · rfl

theorem ownMapCommit_queueView (p : List Byte) (s : State) : (ownMapCommit p s).state.queueView = s.queueView := by
  unfold ownMapCommit
  split <;> rfl

/-- What holds of the state before and of each answer for a declared segment holds of the state after (R41). -/
theorem withDeclared_state {P : State → Prop} {p : List Byte} {s : State} {k : SegId → SegRecord → Reply} (hs : P s)
    (hk : ∀ i r, P (k i r).state) : P (withDeclared p s k).state := by
  unfold withDeclared
  split
  · exact hs
  · split
    · exact hs
    · exact hk _ _

theorem ownSegDeclare_queueView (p : List Byte) (s : State) :
    (ownSegDeclare p s).state.queueView = s.queueView := by
  cases hid : segId? (byteAt p 0).toNat with
  | none => rw [ownSegDeclare_badId hid]; rfl
  | some i =>
    rw [ownSegDeclare_legalId hid]
    split
    · rfl
    · split <;> rfl

theorem ownSegRelease_queueView (p : List Byte) (s : State) :
    (ownSegRelease p s).state.queueView = s.queueView := by
  unfold ownSegRelease
  split
  · refine withDeclared_state (P := fun t => t.queueView = s.queueView) rfl fun i r => ?_
    split <;> rfl
  · rfl

theorem ownSegDrop_queueView (p : List Byte) (s : State) : (ownSegDrop p s).state.queueView = s.queueView := by
  unfold ownSegDrop
  split
  · refine withDeclared_state (P := fun t => t.queueView = s.queueView) rfl fun i r => ?_
    split
    · split <;> rfl
    all_goals rfl
  · rfl

theorem ownSegPin_queueView (p : List Byte) (s : State) : (ownSegPin p s).state.queueView = s.queueView := by
  unfold ownSegPin
  split
  · exact withDeclared_state (P := fun t => t.queueView = s.queueView) rfl fun _ _ => rfl
  · rfl

theorem ownSegQuery_queueView (p : List Byte) (s : State) : (ownSegQuery p s).state.queueView = s.queueView := by
  unfold ownSegQuery
  split <;> rfl

theorem ownSegRead_queueView (p : List Byte) (s : State) : (ownSegRead p s).state.queueView = s.queueView := by
  unfold ownSegRead
  refine withDeclared_state (P := fun t => t.queueView = s.queueView) rfl fun i r => ?_
  dsimp only
  split
  · rfl
  · split
    · rfl
    · split <;> rfl

theorem ownPreload_queueView (p : List Byte) (s : State) : (ownPreload p s).state.queueView = s.queueView := by
  unfold ownPreload
  refine withDeclared_state (P := fun t => t.queueView = s.queueView) rfl fun i r => ?_
  split
  any_goals rfl
  all_goals split <;> rfl

theorem ownFillData_queueView (p : List Byte) (s : State) : (ownFillData p s).state.queueView = s.queueView := by
  unfold ownFillData
  split
  · dsimp only
    split
    · rfl
    · split <;> rfl
  all_goals rfl

theorem ownSetParam_queueView (p : List Byte) (s : State) : (ownSetParam p s).state.queueView = s.queueView := by
  unfold ownSetParam
  split
  · rename_i t h
    unfold setParam at h
    split at h
    case h_6 => cases h
    all_goals split at h <;> cases h; rfl
  · rfl

theorem ownFillBegin_keepsQueueLaws (p : List Byte) (s : State) : KeepsQueueLaws s (ownFillBegin p s).state := by
  unfold ownFillBegin
  refine withDeclared_state (.refl s) fun i r => ?_
  split
  · split
    · exact beginHostFill_keepsQueueLaws ..
    · exact .refl s
  · exact .refl s
  · exact .refl s
  · split
    · exact beginHostFill_keepsQueueLaws ..
    · exact beginHostFill_keepsQueueLaws ..
    all_goals exact .refl s

theorem ownFillEnd_keepsQueueLaws (p : List Byte) (s : State) : KeepsQueueLaws s (ownFillEnd p s).state := by
  unfold ownFillEnd
  split
  · dsimp only
    split
    · exact failFill_keepsQueueLaws ..
    · split
      · exact failFill_keepsQueueLaws ..
      · exact completeFill_keepsQueueLaws ..
  all_goals exact .refl s

theorem abortFill_keepsQueueLaws (i : SegId) (origin : Origin) (s : State) :
    KeepsQueueLaws s (abortFill i origin s).1 := by
  cases origin with
  | queue => exact (failFill_keepsQueueLaws i .aborted s.withdrawChunk).after rfl
  | direct prior => exact (undoFill_keepsQueueLaws i prior s.withdrawChunk).after rfl

theorem ownFillAbort_keepsQueueLaws (p : List Byte) (s : State) : KeepsQueueLaws s (ownFillAbort p s).state := by
  unfold ownFillAbort
  split
  · exact .refl s
  · split
    · split
      · exact abortFill_keepsQueueLaws ..
      · exact .refl s
    · exact .refl s

/-- EVENT_READ removes at least one record (R178). -/
theorem ownEventRead_keepsQueueLaws (p : List Byte) (s : State) : KeepsQueueLaws s (ownEventRead p s).state := by
  unfold ownEventRead
  dsimp only
  split
  · exact .refl s
  · rename_i hmax
    refine ⟨fun h => ?_, id, id⟩
    rw [eventsLaw_iff] at h ⊢
    exact h.take (Nat.pos_of_ne_zero (not_or.mp hmax).1)

/-! ### One lemma per command -/

theorem runCommand_keepsQueueLaws {s : State} (code : Byte) {owner : List Byte → State → Reply}
    (ho : ∀ p, KeepsQueueLaws s (owner p s).state) : Leads (KeepsQueueLaws s) (runCommand code owner s) :=
  .runCommand (.refl s) fun _ p _ => (ho p).trans (.of_view rfl)

theorem runCommand_quiet {s : State} (code : Byte) {owner : List Byte → State → Reply}
    (ho : ∀ p, (owner p s).state.queueView = s.queueView) : Leads (KeepsQueueLaws s) (runCommand code owner s) :=
  runCommand_keepsQueueLaws code fun p => .of_view (ho p)

/-- The three blocks at their reset values meet the laws (R117, R120, R181). -/
theorem KeepsQueueLaws.of_reset {s t : State} (he : t.events = EventQueue.reset) (hw : t.write.queue = [])
    (hl : t.ctl.link = .busyWait) : KeepsQueueLaws s t where
  events _ := by rw [eventsLaw_iff, he]; exact ⟨Nat.zero_le _, Nat.zero_le _, Nat.zero_le _, nofun⟩
  writes _ := by rw [hw]; exact Nat.zero_le _
  stalled _ h := by rw [hl] at h; cases h

theorem execPinReset_keepsQueueLaws (powerOn : Bool) (s : State) :
    Leads (KeepsQueueLaws s) (execPinReset powerOn s) := by
  unfold execPinReset
  split
  · exact .next (.refl s)
  · exact .next (.of_reset rfl rfl rfl)

theorem execPinResetRelease_keepsQueueLaws (sz : BitVec 3) (ma : BitVec 2) (bootEn : Bool) (s : State) :
    Leads (KeepsQueueLaws s) (execPinResetRelease sz ma bootEn s) := by
  unfold execPinResetRelease
  split
  · exact .next (KeepsQueueLaws.trans (.of_reset rfl rfl rfl) (beginStartup_keepsQueueLaws _))
  · exact .next (.refl s)

theorem execReset_keepsQueueLaws (s : State) : Leads (KeepsQueueLaws s) (execReset s) := by
  unfold execReset
  split
  · exact .next (KeepsQueueLaws.trans (.of_reset rfl rfl rfl) (beginStartup_keepsQueueLaws _))
  · exact .next (.refl s)

theorem execReadTransactionEnd_keepsQueueLaws (data : ReadEnd) (s : State) :
    Leads (KeepsQueueLaws s) (execReadTransactionEnd data s) := by
  cases data with
  | ends bytes ahead taken => exact .next (endRead_keepsQueueLaws ..)
  | goesOn count => exact .next (goOn_keepsQueueLaws ..)

theorem execBusyTimerExpiry_keepsQueueLaws (s : State) : Leads (KeepsQueueLaws s) (execBusyTimerExpiry s) := by
  unfold execBusyTimerExpiry
  split <;> exact .next (.of_view rfl)

theorem startWrite_queueView (addr : BitVec 7) (s : State) : (startWrite addr s).queueView = s.queueView := by
  unfold startWrite
  dsimp only
  split
  · split <;> rfl
  · rfl

theorem receiveBytes_queueView (data : List Byte) (s : State) :
    (data.foldl receiveByte s).queueView = s.queueView :=
  (receiveBytes_frame data s).queueView (by decide) (by decide) (by decide)

theorem execWriteTransferStart_keepsQueueLaws (addr : WritePart) (s : State) :
    Leads (KeepsQueueLaws s) (execWriteTransferStart addr s) := by
  unfold execWriteTransferStart
  split
  · exact .next (.of_view ((receiveBytes_queueView ..).trans (startWrite_queueView ..)))
  · exact .next (.of_view (receiveBytes_queueView ..))

theorem execFrameComplete_keepsQueueLaws (code : Byte) (payload : List Byte) (check : Byte) (s : State) :
    Leads (KeepsQueueLaws s) (execFrameComplete code payload check s) := by
  unfold execFrameComplete
  split
  · split <;> exact .next (.of_view rfl)
  · exact .next (.refl s)

theorem execFrameDiscard_keepsQueueLaws (cause : DiscardCause) (s : State) :
    Leads (KeepsQueueLaws s) (execFrameDiscard cause s) := by
  unfold execFrameDiscard
  split
  · split
    · split <;> exact .next (.of_view rfl)
    · exact .next (.of_view rfl)
  · exact .next (.refl s)

theorem execReadTransfer_keepsQueueLaws (addr : Option (BitVec 7)) (count : Nat) (s : State) :
    Leads (KeepsQueueLaws s) (execReadTransfer addr count s) := by
  unfold execReadTransfer
  split
  · dsimp only
    split <;> exact .next (.of_view rfl)
  · split <;> exact .next (.of_view rfl)

theorem takeBuffer_queueView (b : BufId) (f : Frame) (seq : BitVec 8) (ok : Bool) (s : State) :
    (takeBuffer b f seq ok s).queueView = s.queueView := by
  unfold takeBuffer
  dsimp only
  split <;> rfl

theorem execExecutorTake_keepsQueueLaws (s : State) : Leads (KeepsQueueLaws s) (execExecutorTake s) := by
  unfold execExecutorTake
  split
  · split
    · split
      · exact .next (.of_view (takeBuffer_queueView ..))
      all_goals exact .next (.refl s)
    · exact .next (.refl s)
  · exact .next (.refl s)

theorem execStatus_keepsQueueLaws (owners : Nat) (s : State) : Leads (KeepsQueueLaws s) (execStatus owners s) := by
  unfold execStatus
  split
  · dsimp only
    split <;> exact .next (.of_view rfl)
  · exact .next (.refl s)

theorem execCatalogLoad_keepsQueueLaws (s : State) : Leads (KeepsQueueLaws s) (execCatalogLoad s) := by
  unfold execCatalogLoad
  split
  · split
    · exact .next (.of_view rfl)
    all_goals exact .next (.of_view (readCatalog_queueView ..))
  · exact .next (.refl s)

theorem execStartTimerExpiry_keepsQueueLaws (s : State) : Leads (KeepsQueueLaws s) (execStartTimerExpiry s) := by
  unfold execStartTimerExpiry
  split
  · exact .next (failFill_keepsQueueLaws ..)
  all_goals exact .next (.refl s)

theorem execGapTimerExpiry_keepsQueueLaws (s : State) : Leads (KeepsQueueLaws s) (execGapTimerExpiry s) := by
  unfold execGapTimerExpiry
  split
  · exact .next (failFill_keepsQueueLaws ..)
  all_goals exact .next (.refl s)

/-! ### Every command, every step -/

theorem exec_keepsQueueLaws (c : Instr) (s : State) : Leads (KeepsQueueLaws s) (exec c s) := by
  cases c with
  | pinReset powerOn => exact execPinReset_keepsQueueLaws powerOn s
  | pinResetRelease sz ma be => exact execPinResetRelease_keepsQueueLaws sz ma be s
  | read tag addr len => exact .next (presentRead_keepsQueueLaws ..)
  | write addr data => exact .next (presentWrite_keepsQueueLaws ..)
  | arbiterChoice => exact execArbiterChoice_keepsQueueLaws s
  | readTransactionEnd data => exact execReadTransactionEnd_keepsQueueLaws data s
  | writeEnableEnd => exact execWriteEnableEnd_keepsQueueLaws s
  | writeTransactionEnd => exact execWriteTransactionEnd_keepsQueueLaws s
  | pollStart => exact execPollStart_keepsQueueLaws s
  | busyTimerExpiry => exact execBusyTimerExpiry_keepsQueueLaws s
  | pollEnd status => exact execPollEnd_keepsQueueLaws status s
  | writeTransferStart addr => exact execWriteTransferStart_keepsQueueLaws addr s
  | frameComplete code payload check => exact execFrameComplete_keepsQueueLaws code payload check s
  | frameDiscard cause => exact execFrameDiscard_keepsQueueLaws cause s
  | readTransfer addr count => exact execReadTransfer_keepsQueueLaws addr count s
  | executorTake => exact execExecutorTake_keepsQueueLaws s
  | identify => exact runCommand_quiet 0x01 fun _ => rfl
  | status owners => exact execStatus_keepsQueueLaws owners s
  | setParam => exact runCommand_quiet 0x03 fun p => ownSetParam_queueView p s
  | reset => exact execReset_keepsQueueLaws s
  | eventRead => exact runCommand_keepsQueueLaws 0x05 fun p => ownEventRead_keepsQueueLaws p s
  | mapWrite => exact runCommand_quiet 0x10 fun p => ownMapWrite_queueView p s
  | mapClear => exact runCommand_quiet 0x11 fun p => ownMapClear_queueView p s
  | mapCopy => exact runCommand_quiet 0x12 fun _ => rfl
  | mapRead => exact runCommand_quiet 0x13 fun p => ownMapRead_queueView p s
  | mapCommit => exact runCommand_quiet 0x14 fun p => ownMapCommit_queueView p s
  | segDeclare => exact runCommand_quiet 0x20 fun p => ownSegDeclare_queueView p s
  | segRelease => exact runCommand_quiet 0x21 fun p => ownSegRelease_queueView p s
  | segDrop => exact runCommand_quiet 0x22 fun p => ownSegDrop_queueView p s
  | segPin => exact runCommand_quiet 0x23 fun p => ownSegPin_queueView p s
  | segQuery => exact runCommand_quiet 0x24 fun p => ownSegQuery_queueView p s
  | segRead => exact runCommand_quiet 0x25 fun p => ownSegRead_queueView p s
  | preload => exact runCommand_quiet 0x30 fun p => ownPreload_queueView p s
  | fillBegin => exact runCommand_keepsQueueLaws 0x31 fun p => ownFillBegin_keepsQueueLaws p s
  | fillData => exact runCommand_quiet 0x32 fun p => ownFillData_queueView p s
  | fillEnd => exact runCommand_keepsQueueLaws 0x33 fun p => ownFillEnd_keepsQueueLaws p s
  | fillAbort => exact runCommand_keepsQueueLaws 0x34 fun p => ownFillAbort_keepsQueueLaws p s
  | catalogLoad => exact execCatalogLoad_keepsQueueLaws s
  | linkRecover => exact execLinkRecover_keepsQueueLaws s
  | linkRecoverPollEnd status => exact execLinkRecoverPollEnd_keepsQueueLaws status s
  | takeHead => exact .next (takeHead_keepsQueueLaws s)
  | startTimerExpiry => exact execStartTimerExpiry_keepsQueueLaws s
  | gapTimerExpiry => exact execGapTimerExpiry_keepsQueueLaws s

theorem step_keepsQueueLaws (s : State) : Leads (KeepsQueueLaws s) (step s) :=
  step_leads .refl (fun s c rest _ t ht => (exec_keepsQueueLaws c { s with pending := rest } t ht).after rfl) s

/-- The fill queue grows only by an id that is queued where it has room (R75, R76). -/
theorem StoreMove.queue_bounded {v w : StoreView} (h : StoreMove v w) (hv : v.queue.length ≤ 8) :
    w.queue.length ≤ 8 := by
  have begins : ∀ {i q}, v.Begins i q → q.length ≤ 8 := fun hb => by
    cases hb with
    | awaited _ => exact hv
    | head _ hq => rw [hq] at hv; exact Nat.le_of_succ_le hv
    | direct _ _ => exact hv
  cases h with
  | release hr h1 h2 =>
    unfold StoreView.release
    dsimp only
    split
    · exact (List.length_erase_le ..).trans hv
    · exact hv
  | enqueue hi room => dsimp only; rw [List.length_append, List.length_singleton]; exact room
  | skip _ hq _ => rw [hq] at hv; exact Nat.le_of_succ_le hv
  | await _ hq _ _ => rw [hq] at hv; exact Nat.le_of_succ_le hv
  | begin hb _ _ _ => exact begins hb
  | settle he _ _ =>
    cases he with
    | loads _ => exact hv
    | begins hb => exact begins hb
  | reset => exact Nat.zero_le _
  | _ => exact hv

/-- Settles O56: the three laws across each command (`exec_keepsQueueLaws`), one lemma per operation; the fill queue is
bounded through the elementary moves of the store (`step_moves`, `StoreMove.queue_bounded`). -/
theorem queueAndLinkLawsKept : Obligations.QueueAndLinkLawsKept := by
  intro s t h
  obtain ⟨events, writes, stalled⟩ := step_keepsQueueLaws s t h
  have fills : s.fill.queue.length ≤ 8 → t.fill.queue.length ≤ 8 :=
    (step_moves s t h).keeps (P := fun v => v.queue.length ≤ 8) fun _ _ => StoreMove.queue_bounded
  exact ⟨events, fun ⟨hf, hw⟩ => ⟨fills hf, writes hw⟩, stalled⟩

end Sys2Proof.Machine
end

section
/-! PROOFS. The commands of the fill engine (R79, R86 to R89, R94, R97 to R99), and SET_PARAM (R168). -/

namespace Sys2Proof.Machine

/-! ### A command whose owner answers a state -/

/-- A command leaves its owner's state with the response placed (R160). -/
theorem runCommand_replied {code : Byte} {s u : State} {b : BufId} {p : List Byte}
    {owner : List Byte → State → Reply} {st : Status} {pl : List Byte} (h : s.handed code = some (b, p))
    (ho : owner p s = ⟨u, st, pl⟩) : runCommand code owner s = .next (u.respond b st pl) := by
  rw [runCommand_handed h, ho]

/-- A command whose owner leaves the management link alone: its response placed on the owner's state. -/
theorem runCommand_answered {code : Byte} {s u : State} {b : BufId} {p : List Byte}
    {owner : List Byte → State → Reply} {st : Status} {pl : List Byte} (h : s.handed code = some (b, p))
    (ho : owner p s = ⟨u, st, pl⟩) (hu : u.mgmt = s.mgmt) :
    ∃ t, runCommand code owner s = .next t ∧ Answered b st pl s t ∧ SameBut [.mgmt] u t :=
  ⟨_, runCommand_replied h ho, State.respond_answered h hu st pl, u.respond_frame b st pl⟩

theorem Store.crcOf_declared {st : Store} {i : SegId} {r : SegRecord} (hr : st.seg i = some r) :
    st.crcOf i = r.crc := by
  unfold Store.crcOf; rw [hr]

/-! ### SET_PARAM (R93, R110, R119, R134, R168) -/

/-- The five parameters and their legal values. -/
def ParamLegal (k v : Nat) : Prop :=
  (k = 1 ∨ k = 2) ∧ 1 ≤ v ∨ k = 3 ∧ 1 ≤ v ∧ v ≤ 8 ∨ k = 4 ∧ 1 ≤ v ∧ v ≤ 255 ∨
    k = 5 ∧ (v = 2 ∨ v = 4 ∨ v = 8 ∨ v = 16)

/-- A parameter's owner with its new value. -/
def State.withParam (s : State) (k v : Nat) : State :=
  { s with
    fill := { s.fill with
      startTimeout := if k = 1 then v else s.fill.startTimeout
      gapTimeout := if k = 2 then v else s.fill.gapTimeout }
    write := { s.write with highWater := if k = 3 then v else s.write.highWater }
    ctl := { s.ctl with
      busyTimeout := if k = 4 then v else s.ctl.busyTimeout
      divider := if k = 5 then v else s.ctl.divider } }

theorem setParam_legal {k v : Nat} (h : ParamLegal k v) (s : State) : setParam k v s = some (s.withParam k v) := by
  rcases h with ⟨rfl | rfl, hv⟩ | ⟨rfl, hv⟩ | ⟨rfl, hv⟩ | ⟨rfl, hv⟩
  all_goals exact if_pos hv

theorem setParam_illegal {k v : Nat} (h : ¬ ParamLegal k v) (s : State) : setParam k v s = none := by
  unfold setParam
  split
  · exact if_neg fun hv => h (.inl ⟨.inl rfl, hv⟩)
  · exact if_neg fun hv => h (.inl ⟨.inr rfl, hv⟩)
  · exact if_neg fun hv => h (.inr (.inl ⟨rfl, hv⟩))
  · exact if_neg fun hv => h (.inr (.inr (.inl ⟨rfl, hv⟩)))
  · exact if_neg fun hv => h (.inr (.inr (.inr ⟨rfl, hv⟩)))
  · rfl

theorem State.withParam_frame (s : State) (k v : Nat) : SameBut [.fill, .write, .ctl] s (s.withParam k v) := by
  intro p hp; cases p <;> simp_all [Part.same, State.withParam]

theorem setParamArgs_eq (p : List Byte) : setParamArgs p = ((byteAt p 0).toNat, field p 1 2) := by
  rw [← field_byte0]; rfl

/-- Settles O52, from the legal values of the five parameters. -/
theorem setParamEffect : Obligations.SetParamEffect := by
  rintro s b p k v h rfl rfl
  have hexec : exec .setParam s = runCommand 0x03 ownSetParam s := rfl
  rw [hexec]
  split
  · rename_i hlegal
    have ho : ownSetParam p s = ⟨s.withParam (byteAt p 0).toNat (field p 1 2), .ok,
        byte (byteAt p 0).toNat :: leBytes 2 (field p 1 2)⟩ := by
      unfold ownSetParam
      rw [setParamArgs_eq, setParam_legal hlegal]
    refine ⟨_, runCommand_replied h ho, ?_, State.respond_answered h rfl _ _, rfl, rfl, rfl⟩
    exact ((s.withParam_frame _ _).mono (by simp)).trans ((State.respond_frame _ b _ _).mono (by simp))
  · rename_i hlegal
    have ho : ownSetParam p s = .unchanged s .badArgument := by
      unfold ownSetParam
      rw [setParamArgs_eq, setParam_illegal hlegal]
    obtain ⟨t, ht, ha, hf⟩ := runCommand_unchanged h ho
    exact ⟨t, ht, hf.mono (by simp), ha, hf⟩

/-! ### PRELOAD (R94) -/

/-- What PRELOAD answers, by the segment's state. -/
theorem ownPreload_declared {p : List Byte} {s : State} {i : SegId} {r : SegRecord}
    (hp : (byteAt p 0).toNat = segNum i) (hr : s.store.seg i = some r) : ownPreload p s =
      if r.state ≠ .absent ∧ r.state ≠ .failed then .unchanged s .ok [r.state.code]
      else if 8 ≤ s.fill.queue.length then .unchanged s .full
      else ⟨s.enqueueFill i, .ok, [0x02]⟩ := by
  unfold ownPreload
  rw [withDeclared_some hp hr]
  cases r.state <;> rfl

/-- Settles O30, by the segment's state and the room in the fill queue. -/
theorem preloadEffect : Obligations.PreloadEffect := by
  refine ⟨rfl, fun s b p i r h hp hr => ?_⟩
  have hexec : exec .preload s = runCommand 0x30 ownPreload s := rfl
  have ho := ownPreload_declared hp hr
  rw [hexec]
  split
  · rename_i hs
    rw [if_pos hs] at ho
    exact runCommand_unchanged h ho
  · rename_i hs
    rw [if_neg hs] at ho
    split
    · rename_i hfull
      rw [if_pos hfull] at ho
      exact runCommand_unchanged h ho
    · rename_i hfull
      rw [if_neg hfull] at ho
      exact ⟨_, runCommand_replied h ho, State.respond_answered h rfl _ _,
        ((s.enqueueFill_frame i).mono (by simp)).trans ((State.respond_frame _ b _ _).mono (by simp)), rfl,
        State.enqueueFill_seg hr, s.enqueueFill_sameOff i, rfl, rfl, rfl⟩

/-! ### FILL_BEGIN (R86, R87) -/

/-- FILL_BEGIN may load a segment: it is awaited, or the fill is a direct one of an ABSENT or FAILED segment while the
engine is IDLE (R86). -/
def State.BeginsHostFill (s : State) (i : SegId) (r : SegRecord) (o : Origin) : Prop :=
  (∃ d, s.fill.engine = .awaitHost i d) ∧ o = .queue ∨
    s.fill.engine = .idle ∧ r.state = .absent ∧ o = .direct .absent ∨
    s.fill.engine = .idle ∧ r.state = .failed ∧ o = .direct .failed

section

variable {p : List Byte} {s : State} {i : SegId} {r : SegRecord}

theorem ownFillBegin_begins (hp : (byteAt p 0).toNat = segNum i) (hr : s.store.seg i = some r) {o : Origin}
    (h : s.BeginsHostFill i r o) : ownFillBegin p s = beginHostFill i o s := by
  unfold ownFillBegin
  rw [withDeclared_some hp hr]
  rcases h with ⟨⟨d, he⟩, rfl⟩ | ⟨he, hs, rfl⟩ | ⟨he, hs, rfl⟩
  · rw [he]; exact if_pos rfl
  · rw [he, hs]
  · rw [he, hs]

theorem ownFillBegin_busy (hp : (byteAt p 0).toNat = segNum i) (hr : s.store.seg i = some r)
    (hi : s.fill.engine ≠ .idle) (ha : ∀ d, s.fill.engine ≠ .awaitHost i d) :
    ownFillBegin p s = .unchanged s .busy := by
  unfold ownFillBegin
  rw [withDeclared_some hp hr]
  cases he : s.fill.engine with
  | idle => exact absurd he hi
  | awaitHost j d => exact if_neg fun hj : j = i => ha d (hj ▸ he)
  | loadingHost => rfl
  | loadingCatalog => rfl

theorem ownFillBegin_wrongState (hp : (byteAt p 0).toNat = segNum i) (hr : s.store.seg i = some r)
    (he : s.fill.engine = .idle) (h1 : r.state ≠ .absent) (h2 : r.state ≠ .failed) :
    ownFillBegin p s = .unchanged s .wrongState := by
  unfold ownFillBegin
  rw [withDeclared_some hp hr, he]
  dsimp only
  split
  · exact absurd ‹_› h1
  · exact absurd ‹_› h2
  all_goals rfl

end

/-- Host loading begins with the blocks an allocation grants (R87). -/
theorem beginHostFill_granted {s : State} {i : SegId} {r : SegRecord} (hr : s.store.seg i = some r)
    {bs : List Block} {st : Store} {evs : List Event}
    (ha : s.store.allocate (blocksFor r.length) i = some (bs, st, evs)) (o : Origin) : beginHostFill i o s =
      ⟨(s.enterFilling i o bs st evs).setEngine (.loadingHost i o 0 crc16Init s.fill.gapTimeout), .ok,
        0x00 :: leBytes 2 (blocksFor r.length)⟩ := by
  unfold beginHostFill
  dsimp only
  rw [Store.lengthOf_declared hr, ha]

theorem beginHostFill_noSpace {s : State} {i : SegId} {r : SegRecord} (hr : s.store.seg i = some r)
    (hspace : s.store.reachable < blocksFor r.length) (o : Origin) :
    beginHostFill i o s = ⟨failFill i .noSpace s, .ok, [0x01, 0, 0]⟩ := by
  unfold beginHostFill
  dsimp only
  rw [Store.lengthOf_declared hr, (s.store.allocate_none _ i).mpr hspace]
  rfl

theorem State.enterFilling_frame (s : State) (i : SegId) (o : Origin) (bs : List Block) (st : Store)
    (evs : List Event) : SameBut [.store, .events] s (s.enterFilling i o bs st evs) := by
  intro p hp; cases p <;> simp_all [Part.same, State.enterFilling]

theorem State.setEngine_frame (s : State) (e : Engine) : SameBut [.fill] s (s.setEngine e) := by
  intro p hp; cases p <;> simp_all [Part.same, State.setEngine]

/-- The record of a segment that has entered FILLING with the blocks granted (R31). -/
theorem State.enterFilling_declared {s : State} {i : SegId} {r : SegRecord} (hr : s.store.seg i = some r)
    (hn : r.state ≠ .resident) {n : Nat} {bs : List Block} {st : Store} {evs : List Event}
    (ha : s.store.allocate n i = some (bs, st, evs)) (o : Origin) :
    (s.enterFilling i o bs st evs).store.seg i =
      some { r with state := .filling, blocks := bs, origin := some o } := by
  rw [s.enterFilling_seg i i o bs st evs, if_pos rfl, Store.allocate_seg ha hr hn, hr]; rfl

/-- Settles O31: the fill that begins, the two refusals, and NO_SPACE. -/
theorem fillBeginEffect : Obligations.FillBeginEffect := by
  refine ⟨fun s b p i r o bs st evs h hp hr hn hbegin ha => ?_, fun s b p i r h hp hr => ⟨fun hi hawait => ?_,
    fun he h1 h2 => ?_, fun hbegin hspace => ?_⟩⟩
  · have ho := (ownFillBegin_begins hp hr hbegin).trans (beginHostFill_granted hr ha o)
    have hsram : st.sram = s.store.sram := Store.allocate_sram ha
    refine ⟨_, runCommand_replied h ho, State.respond_answered h rfl _ _, rfl,
      State.enterFilling_declared hr hn ha o, fun j hj => ?_, rfl, rfl, hsram, rfl, ?_⟩
    · exact (s.enterFilling_seg i j o bs st evs).trans (if_neg hj)
    · exact ((s.enterFilling_frame i o bs st evs).mono (by simp)).trans
        (((State.setEngine_frame _ _).mono (by simp)).trans ((State.respond_frame _ b _ _).mono (by simp)))
  · exact runCommand_unchanged h (ownFillBegin_busy hp hr hi hawait)
  · exact runCommand_unchanged h (ownFillBegin_wrongState hp hr he h1 h2)
  · obtain ⟨o, hbegin⟩ : ∃ o, s.BeginsHostFill i r o := by
      rcases hbegin with hawait | ⟨he, hs | hs⟩
      · exact ⟨_, .inl ⟨hawait, rfl⟩⟩
      · exact ⟨_, .inr (.inl ⟨he, hs, rfl⟩)⟩
      · exact ⟨_, .inr (.inr ⟨he, hs, rfl⟩)⟩
    exact runCommand_answered h ((ownFillBegin_begins hp hr hbegin).trans (beginHostFill_noSpace hr hspace o)) rfl

/-! ### FILL_DATA and FILL_END (R88, R89) -/

section

variable {s : State} {i : SegId} {r : SegRecord} {o : Origin} {n d : Nat} {c : BitVec 16}

theorem ownFillData_notLoading (h : ∀ i o n c d, s.fill.engine ≠ .loadingHost i o n c d) (p : List Byte) :
    ownFillData p s = .unchanged s .wrongState := by
  unfold ownFillData
  split
  · exact absurd ‹_› (h _ _ _ _ _)
  all_goals rfl

/-- What FILL_DATA answers while the host loads: its two checks in order, then the bytes stored. -/
theorem ownFillData_loading (he : s.fill.engine = .loadingHost i o n c d) (hr : s.store.seg i = some r)
    (p : List Byte) : ownFillData p s =
      if field p 0 3 ≠ n then .unchanged s .sequence (leBytes 3 n)
      else if r.length < n + (p.drop 3).length then .unchanged s .length (leBytes 3 n)
      else ⟨State.setEngine { s with store := { s.store with
          sram := overlayStore r.blocks (p.drop 3) n s.store.sram } }
          (.loadingHost i o (n + (p.drop 3).length) (crc16Over c (p.drop 3)) s.fill.gapTimeout), .ok,
        leBytes 3 (n + (p.drop 3).length)⟩ := by
  unfold ownFillData
  rw [he]
  dsimp only [fillDataArgs]
  rw [Store.lengthOf_declared hr, Store.blocksOf_declared hr]
  by_cases hn : field p 0 3 = n
  · rw [hn]
  · rw [if_pos hn, if_pos hn]

theorem ownFillEnd_notLoading (h : ∀ i o n c d, s.fill.engine ≠ .loadingHost i o n c d) (p : List Byte) :
    ownFillEnd p s = .unchanged s .wrongState := by
  unfold ownFillEnd
  split
  · exact absurd ‹_› (h _ _ _ _ _)
  all_goals rfl

/-- The outcome that FILL_END decides, by the bytes received and their CRC. -/
theorem ownFillEnd_loading (he : s.fill.engine = .loadingHost i o n c d) (hr : s.store.seg i = some r)
    (p : List Byte) : ownFillEnd p s =
      if n < r.length then ⟨failFill i .length s, .ok, 0x01 :: (leBytes 3 n ++ leBytes 2 c.toNat)⟩
      else if c ≠ r.crc then ⟨failFill i .crc s, .ok, 0x02 :: (leBytes 3 n ++ leBytes 2 c.toNat)⟩
      else ⟨completeFill i o s, .ok, 0x00 :: (leBytes 3 n ++ leBytes 2 c.toNat)⟩ := by
  unfold ownFillEnd
  rw [he]
  dsimp only
  rw [Store.lengthOf_declared hr, Store.crcOf_declared hr]

end

/-- Settles O32, check by check (`ownFillData_loading`). -/
theorem fillDataEffect : Obligations.FillDataEffect := by
  intro s b p h
  have hexec : exec .fillData s = runCommand 0x32 ownFillData s := rfl
  rw [hexec]
  refine ⟨fun hno => runCommand_unchanged h (ownFillData_notLoading hno p), fun i r o n c d he hr => ?_⟩
  have ho := ownFillData_loading he hr p
  split
  · rename_i hseq
    rw [if_pos hseq] at ho
    exact runCommand_unchanged h ho
  · rename_i hseq
    rw [if_neg hseq] at ho
    split
    · rename_i hlen
      rw [if_pos hlen] at ho
      exact runCommand_unchanged h ho
    · rename_i hlen
      rw [if_neg hlen] at ho
      refine ⟨_, runCommand_replied h ho, State.respond_answered h rfl _ _, rfl, rfl,
        fun hm k hk => overlayStore_read _ _ _ hm k hk, ?_⟩
      exact ((s.setStore_frame _).mono (by simp)).trans
        (((State.setEngine_frame _ _).mono (by simp)).trans ((State.respond_frame _ b _ _).mono (by simp)))

/-- Settles O33, outcome by outcome (`ownFillEnd_loading`). -/
theorem fillEndEffect : Obligations.FillEndEffect := by
  intro s b p h
  have hexec : exec .fillEnd s = runCommand 0x33 ownFillEnd s := rfl
  rw [hexec]
  refine ⟨fun hno => runCommand_unchanged h (ownFillEnd_notLoading hno p), fun i r o n c d he hr => ?_⟩
  have ho := ownFillEnd_loading he hr p
  split
  · rename_i hlen
    rw [if_pos hlen] at ho
    exact runCommand_answered h ho rfl
  · rename_i hlen
    rw [if_neg hlen] at ho
    split
    · rename_i hcrc
      rw [if_pos hcrc] at ho
      exact runCommand_answered h ho rfl
    · rename_i hcrc
      rw [if_neg hcrc] at ho
      exact runCommand_answered h ho rfl

end Sys2Proof.Machine
end

section
/-! PROOFS. The head of the fill queue (R79, R80), the chunks of a catalog fill (R82, R83) and FILL_ABORT (R97 to
R99). -/

namespace Sys2Proof.Machine

/-! ### The head of the fill queue (R79, R80) -/

/-- The head has been taken off the fill queue. -/
def State.headTaken (s : State) (rest : List SegId) : State := { s with fill := { s.fill with queue := rest } }

theorem State.headTaken_frame (s : State) (rest : List SegId) : SameBut [.fill] s (s.headTaken rest) := by
  intro p hp; cases p <;> simp_all [Part.same, State.headTaken]

section

variable {s : State} {i : SegId} {rest : List SegId} {r : SegRecord}

theorem takeHead_host (he : s.fill.engine = .idle) (hq : s.fill.queue = i :: rest) (hr : s.store.seg i = some r)
    (hsrc : r.source = .host) : takeHead s = awaitHost i r (s.headTaken rest) := by
  unfold takeHead
  rw [he, hq]
  dsimp only
  rw [hr]
  dsimp only
  rw [hsrc]
  rfl

theorem takeHead_catalog (he : s.fill.engine = .idle) (hq : s.fill.queue = i :: rest) (hr : s.store.seg i = some r)
    {image : Nat} (hsrc : r.source = .catalog image) :
    takeHead s = startCatalogFill i r image .queue (s.headTaken rest) := by
  unfold takeHead
  rw [he, hq]
  dsimp only
  rw [hr]
  dsimp only
  rw [hsrc]
  rfl

end

theorem awaitHost_frame (i : SegId) (r : SegRecord) (s : State) :
    SameBut [.fill, .store, .events] s (awaitHost i r s) := by
  intro p hp; cases p <;> simp_all [Part.same, awaitHost]

theorem awaitHost_seg {s : State} {i : SegId} {r : SegRecord} (hr : s.store.seg i = some r) (r' : SegRecord) :
    (awaitHost i r' s).store.seg i = some { r with state := .requested, origin := some .queue } := by
  show (s.store.update i _).seg i = _
  rw [Store.seg_update_same, hr]; rfl

/-- Settles O29: a host segment is awaited, a catalog segment goes through the checks of R80 in their order. -/
theorem takeHeadEffect : Obligations.TakeHeadEffect := by
  refine ⟨fun s i rest r he hq hr hsrc => ?_, fun s i rest r image he hq hr hsrc hs => ?_⟩
  · refine ⟨awaitHost i r (s.headTaken rest), congrArg _ (takeHead_host he hq hr hsrc), rfl,
      awaitHost_seg (s := s.headTaken rest) hr r, s.store.update_sameOff i _, rfl, rfl, rfl, rfl, ?_⟩
    exact ((s.headTaken_frame rest).mono (by simp)).trans (awaitHost_frame i r _)
  · refine ⟨startCatalogFill i r image .queue (s.headTaken rest), congrArg _ (takeHead_catalog he hq hr hsrc), ?_⟩
    split
    · exact startCatalogFill_stalled (s := s.headTaken rest) ‹_› ..
    · rename_i hlink
      split
      · exact startCatalogFill_long (s := s.headTaken rest) hlink ‹_› ..
      · rename_i hsize
        split
        · exact startCatalogFill_noSpace (s := s.headTaken rest) hlink hsize ‹_› _
        · rename_i bs st evs ha
          have hn : r.state ≠ .resident := by rw [hs]; nofun
          have hsram : st.sram = s.store.sram := Store.allocate_sram ha
          rw [startCatalogFill_begun (s := s.headTaken rest) hr hsrc hn hlink hsize ha .queue]
          refine ⟨rfl, State.enterFilling_declared (s := s.headTaken rest) hr hn ha .queue, fun j hj => ?_, rfl, rfl,
            hsram, rfl, rfl, ?_⟩
          · exact ((s.headTaken rest).enterFilling_seg i j _ bs st evs).trans (if_neg hj)
          · exact ((s.headTaken_frame rest).mono (by simp)).trans (catalogFilling_frame _ i .queue bs st evs _)

/-! ### A chunk of a catalog fill (R82, R83) -/

section

variable {s : State} {i : SegId} {r : SegRecord} {o : Origin} {n : Nat} {c : BitVec 16}

/-- The next chunk runs to its window's end or to the image's, whichever comes first (R82). -/
theorem State.requestChunk_next {image : Nat} (he : s.fill.engine = .loadingCatalog i o n c)
    (hr : s.store.seg i = some r) (hsrc : r.source = .catalog image) (hl : s.ctl.link ≠ .stalled)
    (hsize : image + r.length ≤ s.memSize) (hn : n ≤ r.length) : s.requestChunk = { s with ctl := { s.ctl with
      loader := s.ctl.loader ++
        [⟨.fill, image + n, min (32 - (image + n) % 32) (r.length - n), false, false⟩] } } := by
  have hw : windowPart (image + n) (image + r.length) = min (32 - (image + n) % 32) (r.length - n) := by
    simp [windowPart, Config.windowBytes, Nat.add_sub_add_left]
  unfold State.requestChunk
  rw [he]
  dsimp only
  rw [Store.imageOf_catalog hr hsrc, Store.lengthOf_declared hr, hw, Controller.arrive_queued hl (by omega)]

/-- The bytes of a chunk have entered the segment's blocks (R83). -/
def State.chunkStored (s : State) (blocks : List Block) (data : List Byte) (n : Nat) : State :=
  { s with store := { s.store with sram := overlayStore blocks data n s.store.sram } }

/-- What a chunk's arrival leads to, by the bytes received and their CRC (R83). -/
theorem chunkArrived_loading (he : s.fill.engine = .loadingCatalog i o n c) (hr : s.store.seg i = some r)
    (data : List Byte) : chunkArrived data s =
      if n + data.length < r.length then
        (((s.chunkStored r.blocks data n).setEngine
          (.loadingCatalog i o (n + data.length) (crc16Over c data))).requestChunk, .more)
      else if crc16Over c data = r.crc then (completeFill i o (s.chunkStored r.blocks data n), .done)
      else (failFill i .crc (s.chunkStored r.blocks data n), .failed) := by
  unfold chunkArrived
  rw [he]
  dsimp only
  rw [Store.lengthOf_declared hr, Store.crcOf_declared hr, Store.blocksOf_declared hr]
  rfl

end

theorem deliverLoader_fill {q : LoaderRequest} (h : q.withdrawn = false) (hc : q.client = .fill)
    (data ahead : List Byte) (taken : Nat) (s : State) : deliverLoader q data ahead taken s =
      match chunkArrived data s with
      | (s1, .more) => s1
      | (s1, .done) => preloadEnded false taken s1
      | (s1, .failed) => preloadEnded true taken s1 := by
  simp only [deliverLoader, h, hc]
  rfl

/-- The sequencer takes the end of a fill in stage PRELOAD alone (R149). -/
theorem preloadEnded_eq (failed : Bool) (taken : Nat) {s t : State} (h : t.startup = s.startup) :
    preloadEnded failed taken t = if s.startup.stage = .preload then preloadEnded failed taken t else t := by
  rw [← h]
  rcases preloadEnded_spec failed taken t with ⟨hs, -⟩ | ⟨hs, e⟩
  · rw [if_pos hs]
  · rw [if_neg hs, e]

/-- Settles O37: the chunk's bytes are delivered (`endRead_loader`), and what they lead to (`chunkArrived_loading`). -/
theorem chunkArrives : Obligations.ChunkArrives := by
  intro s data ahead taken q rest d htx hh hq hc
  have hend := endRead_loader htx hh hq (State.readFits_other hq (by rw [hc]; nofun) data) ahead taken
  rw [exec_readEnds, hend]
  refine ⟨fun hw => congrArg _ (deliverLoader_withdrawn hw ..), ?_⟩
  rintro hw i r image o n c _ he hr hsrc hsize hlink rfl
  have hchunk := chunkArrived_loading (s := s.loaderPopped rest) he hr data
  rw [deliverLoader_fill hw hc, hchunk]
  refine ⟨fun hm k hk => overlayStore_read _ _ _ hm k hk, fun hlen => ?_, fun hlen hcrc => ?_, fun hlen hcrc => ?_⟩
  · have hl : s.ctl.link ≠ .stalled := by rw [hlink]; nofun
    rw [if_pos hlen]
    exact congrArg _ (State.requestChunk_next (s := ((s.loaderPopped rest).chunkStored r.blocks data n).setEngine
      (.loadingCatalog i o (n + data.length) (crc16Over c data))) rfl hr hsrc hl hsize (Nat.le_of_lt hlen))
  · rw [if_neg (by omega), if_pos hcrc]
    exact congrArg _ (preloadEnded_eq false taken rfl)
  · rw [if_neg (by omega), if_neg hcrc]
    exact congrArg _ (preloadEnded_eq true taken rfl)

/-! ### The chunk request withdrawn from the loader (R99, R123, R125) -/

/-- What the withdrawal makes of a request: one of the fill engine's not yet withdrawn leaves the loader, or stays
with its data to be dropped once it is granted (R123). -/
def LoaderRequest.withdraw (q : LoaderRequest) : Option LoaderRequest :=
  if q.client = .fill ∧ q.withdrawn = false then (if q.granted then some { q with withdrawn := true } else none)
  else some q

theorem Controller.withdrawFill_eq (c : Controller) : c.withdrawFill = { c with
    loader := c.loader.filterMap LoaderRequest.withdraw
    aging := if c.offersL && !({ c with loader := c.loader.filterMap LoaderRequest.withdraw } : Controller).offersL
      then 0 else c.aging } := rfl

theorem LoaderRequest.filterMap_withdraw_others {l : List LoaderRequest}
    (h : ∀ q ∈ l, ¬ (q.client = .fill ∧ q.withdrawn = false)) : l.filterMap LoaderRequest.withdraw = l := by
  induction l with
  | nil => rfl
  | cons q l ih =>
    have hq : q.withdraw = some q := if_neg (h q (List.mem_cons_self ..))
    rw [List.filterMap_cons_some hq, ih fun x hx => h x (List.mem_cons_of_mem q hx)]

theorem Controller.withdrawFill_none {c : Controller}
    (h : ∀ q ∈ c.loader, ¬ (q.client = .fill ∧ q.withdrawn = false)) : c.withdrawFill = c := by
  rw [Controller.withdrawFill_eq, LoaderRequest.filterMap_withdraw_others h, Bool.and_not_self]
  rfl

/-- The one request of the fill engine leaves the loader or stays in its place, marked. -/
theorem LoaderRequest.filterMap_withdraw_one {q : LoaderRequest} {pre post : List LoaderRequest}
    (hc : q.client = .fill) (hw : q.withdrawn = false)
    (h : ∀ x ∈ pre ++ post, ¬ (x.client = .fill ∧ x.withdrawn = false)) :
    (pre ++ q :: post).filterMap LoaderRequest.withdraw =
      if q.granted then pre ++ { q with withdrawn := true } :: post else pre ++ post := by
  have hpre := filterMap_withdraw_others fun x hx => h x (List.mem_append_left post hx)
  have hpost := filterMap_withdraw_others fun x hx => h x (List.mem_append_right pre hx)
  have hq : q.withdraw = if q.granted then some { q with withdrawn := true } else none := if_pos ⟨hc, hw⟩
  rw [List.filterMap_append, hpre]
  cases hg : q.granted with
  | true => rw [hg] at hq; rw [List.filterMap_cons_some hq, hpost]; rfl
  | false => rw [hg] at hq; rw [List.filterMap_cons_none hq, hpost]; rfl

theorem Controller.offersL_iff (c : Controller) :
    c.offersL = true ↔ ∃ q ∈ c.loader.head?, q.granted = false := by
  unfold Controller.offersL
  cases c.loader <;> simp

/-- Client L is left with no offer where the withdrawn request was the head, not yet granted, and the request behind it
is granted or there is none (R125). -/
theorem Controller.withdrawFill_one {c : Controller} {q : LoaderRequest} {pre post : List LoaderRequest}
    (hl : c.loader = pre ++ q :: post) (hc : q.client = .fill) (hw : q.withdrawn = false)
    (h : ∀ x ∈ pre ++ post, ¬ (x.client = .fill ∧ x.withdrawn = false)) : c.withdrawFill = { c with
      loader := if q.granted then pre ++ { q with withdrawn := true } :: post else pre ++ post
      aging := if pre = [] ∧ q.granted = false ∧ (∀ x ∈ post.head?, x.granted = true) then 0 else c.aging } := by
  rw [Controller.withdrawFill_eq, hl, LoaderRequest.filterMap_withdraw_one hc hw h]
  congr 1
  refine if_congr ?_ rfl rfl
  rw [Bool.and_eq_true, Bool.not_eq_true', ← Bool.not_eq_true, Controller.offersL_iff, Controller.offersL_iff, hl]
  cases pre with
  | cons a pre => cases q.granted <;> simp
  | nil => cases hg : q.granted <;> simp [hg]

/-! ### A direct fill undone (R35, R98) -/

theorem undoFill_frame (i : SegId) (prior : Prior) (s : State) :
    SameBut [.store, .fill, .port, .outputs, .events] s (undoFill i prior s).1 := by
  intro p hp
  unfold undoFill
  dsimp only
  split
  · cases p <;> simp_all [Part.same]
  · split <;> cases p <;> simp_all [Part.same]

/-- Whatever becomes of the segment, its blocks are freed and the other segments and overlay memory keep (R35). -/
theorem undoFill_store (i : SegId) (prior : Prior) (s : State) :
    s.store.SameOff i (undoFill i prior s).1.store ∧
      (undoFill i prior s).1.store.free = s.store.free ++ s.store.blocksOf i ∧
      (undoFill i prior s).1.store.residence = s.store.residence ∧
      (undoFill i prior s).1.store.sram = s.store.sram := by
  have hoff := s.store.undoFill_sameOff i prior
  unfold undoFill
  dsimp only
  split
  · exact ⟨hoff, rfl, rfl, rfl⟩
  · split <;> exact ⟨hoff.trans (Store.update_sameOff _ i _), rfl, rfl, rfl⟩

section

variable {s : State} {i : SegId} {r : SegRecord}

theorem Store.undoFill_declared {st : Store} (hr : st.seg i = some r) (prior : Prior) :
    (st.undoFill i prior).seg i = some { r with state := prior.state, blocks := [], origin := none } := by
  rw [Store.undoFill_seg, if_pos rfl, hr]; rfl

theorem undoFill_unheld (hr : s.store.seg i = some r) (hheld : r.held = 0) (prior : Prior) : undoFill i prior s =
    (State.endFill { s with store := s.store.undoFill i prior } i .undone, 0) :=
  if_pos ((Store.heldOf_declared hr).trans hheld)

theorem undoFill_queued (hr : s.store.seg i = some r) (hheld : r.held ≠ 0) (hroom : s.fill.queue.length < 8)
    (prior : Prior) : undoFill i prior s =
      ((State.enqueueFill { s with store := s.store.undoFill i prior } i).endFill i .undone, 0) :=
  (if_neg fun h => hheld ((Store.heldOf_declared hr).symm.trans h)).trans (if_pos hroom)

theorem undoFill_errored (hr : s.store.seg i = some r) (hheld : r.held ≠ 0) (hroom : ¬ s.fill.queue.length < 8)
    (prior : Prior) : undoFill i prior s =
      (((State.errorHeld { s with store := s.store.undoFill i prior } i).post
        (.fillFailed i .aborted (s.port.heldFor i).length)).endFill i (.failed .aborted),
        (s.port.heldFor i).length) :=
  (if_neg fun h => hheld ((Store.heldOf_declared hr).symm.trans h)).trans (if_neg hroom)

theorem Store.stateCode_declared {st : Store} (hr : st.seg i = some r) : st.stateCode i = r.state.code := by
  unfold Store.stateCode; rw [hr]

end

/-! ### FILL_ABORT (R97) -/

theorem ownFillAbort_badId {p : List Byte} (h : segId? (byteAt p 0).toNat = none) (s : State) :
    ownFillAbort p s = .unchanged s .badArgument := by
  unfold ownFillAbort; rw [idArg_eq, h]

theorem ownFillAbort_notCurrent {p : List Byte} {i : SegId} (h : segId? (byteAt p 0).toNat = some i) {s : State}
    (hc : s.fill.engine.current ≠ some i) : ownFillAbort p s = .unchanged s .wrongState := by
  unfold ownFillAbort
  rw [idArg_eq, h]
  dsimp only
  split
  · exact if_neg hc
  · rfl

/-- FILL_ABORT of the current segment: the end it gives the fill, by its origin, and the segment's state after it. -/
theorem ownFillAbort_current {p : List Byte} {i : SegId} (h : segId? (byteAt p 0).toNat = some i) {s : State}
    (hc : s.fill.engine.current = some i) {o : Origin} (ho : s.fill.engine.origin = some o) : ownFillAbort p s =
      ⟨(abortFill i o s).1, .ok, [(abortFill i o s).1.store.stateCode i, byte (abortFill i o s).2]⟩ := by
  unfold ownFillAbort
  rw [idArg_eq, h]
  dsimp only
  rw [ho]
  exact if_pos hc

theorem abortFill_direct (i : SegId) (prior : Prior) (s : State) :
    abortFill i (.direct prior) s = undoFill i prior s.withdrawChunk := rfl

theorem Engine.origin_of_current {e : Engine} {i : SegId} (h : e.current = some i) : ∃ o, e.origin = some o := by
  cases e with
  | idle => cases h
  | _ => exact ⟨_, rfl⟩

theorem State.withdrawChunk_frame (s : State) : SameBut [.ctl] s s.withdrawChunk := by
  intro p hp; cases p <;> simp_all [Part.same]

theorem State.endFill_frame (s : State) (i : SegId) (o : FillOutcome) : SameBut [.fill] s (s.endFill i o) := by
  intro p hp; cases p <;> simp_all [Part.same]

/-- The withdrawal and a change of the store, which every undo begins with (R98, R99). -/
theorem State.withdrawn_frame (s : State) (st : Store) :
    SameBut [.store, .ctl] s { s.withdrawChunk with store := st } :=
  (s.withdrawChunk_frame.mono (by simp)).trans ((s.withdrawChunk.setStore_frame st).mono (by simp))

/-- What FILL_ABORT of a direct fill leaves alone, whatever the outcome (R98). -/
theorem abortFill_direct_frame (i : SegId) (prior : Prior) (s : State) :
    SameBut [.store, .fill, .ctl, .port, .outputs, .events] s (abortFill i (.direct prior) s).1 :=
  (s.withdrawChunk_frame.mono (by simp)).trans ((undoFill_frame i prior _).mono (by simp))

/-- The segment's state after FILL_ABORT, as the response names it. -/
theorem Answered.stateCode {s t u : State} {b : BufId} {i : SegId} {n : Nat} {r : SegRecord}
    (h : Answered b .ok [u.store.stateCode i, byte n] s t) (hr : u.store.seg i = some r) :
    Answered b .ok [r.state.code, byte n] s t := by
  rwa [Store.stateCode_declared hr] at h

/-! What FILL_ABORT of a direct fill leaves behind, once its response is in its buffer (R97, R98). -/

section

variable {s t : State} {b : BufId} {i : SegId} {prior : Prior} {r : SegRecord}
  (hr : s.store.seg i = some r) (hf : SameBut [.mgmt] (abortFill i (.direct prior) s).1 t)
  (ha : Answered b .ok
    [(abortFill i (.direct prior) s).1.store.stateCode i, byte (abortFill i (.direct prior) s).2] s t)

include hr hf

theorem fillAbort_direct_kept : SameBut [.store, .fill, .ctl, .mgmt, .port, .outputs, .events] s t ∧
    t.ctl = s.ctl.withdrawFill ∧ OtherSegsSame i s t ∧ t.store.free = s.store.free ++ r.blocks ∧
    t.store.residence = s.store.residence ∧ t.store.sram = s.store.sram := by
  obtain ⟨hoff, hfree, hres, hsram⟩ := undoFill_store i prior s.withdrawChunk
  have hst : t.store = (undoFill i prior s.withdrawChunk).1.store := hf .store (by decide)
  have hctl : t.ctl = (undoFill i prior s.withdrawChunk).1.ctl := hf .ctl (by decide)
  refine ⟨((abortFill_direct_frame i prior s).mono (by simp)).trans (hf.mono (by simp)),
    hctl.trans (undoFill_frame i prior _ .ctl (by decide)),
    fun j hj => (congrArg (Store.seg · j) hst).trans (hoff j hj), ?_, hst ▸ hres, hst ▸ hsram⟩
  rw [hst]
  exact hfree.trans (congrArg _ (Store.blocksOf_declared hr))

include ha

theorem fillAbort_direct_unheld (hheld : r.held = 0) :
    Answered b .ok [prior.state.code, 0] s t ∧ SameBut [.store, .fill, .ctl, .mgmt] s t ∧
      t.store.seg i = some { r with state := prior.state, blocks := [], origin := none } ∧
      t.fill = { s.fill with engine := .idle, lastEnd := some (i, .undone) } := by
  rw [abortFill_direct, undoFill_unheld (s := s.withdrawChunk) hr hheld] at ha hf
  have hst : t.store = s.store.undoFill i prior := hf .store (by decide)
  have hundone := Store.undoFill_declared hr prior
  refine ⟨ha.stateCode hundone, ?_, hst ▸ hundone, hf .fill (by decide)⟩
  exact ((s.withdrawn_frame _).mono (by simp)).trans
    (((State.endFill_frame _ i _).mono (by simp)).trans (hf.mono (by simp)))

theorem fillAbort_direct_queued (hheld : r.held ≠ 0) (hroom : s.fill.queue.length < 8) :
    Answered b .ok [0x02, 0] s t ∧ SameBut [.store, .fill, .ctl, .mgmt] s t ∧
      t.store.seg i = some { r with state := .queued, blocks := [], origin := none } ∧
      t.fill = { s.fill with queue := s.fill.queue ++ [i], engine := .idle, lastEnd := some (i, .undone) } := by
  rw [abortFill_direct, undoFill_queued (s := s.withdrawChunk) hr hheld hroom] at ha hf
  have hqueued := State.enqueueFill_seg (s := { s.withdrawChunk with store := s.store.undoFill i prior })
    (Store.undoFill_declared hr prior)
  refine ⟨ha.stateCode hqueued, ?_, (congrArg (Store.seg · i) (hf .store (by decide))).trans hqueued,
    hf .fill (by decide)⟩
  exact ((s.withdrawn_frame _).mono (by simp)).trans (((State.enqueueFill_frame _ i).mono (by simp)).trans
    (((State.endFill_frame _ i _).mono (by simp)).trans (hf.mono (by simp))))

theorem fillAbort_direct_errored (hheld : r.held ≠ 0) (hroom : ¬ s.fill.queue.length < 8) :
    Answered b .ok [prior.state.code, byte (s.port.heldFor i).length] s t ∧
      t.store.seg i = some { r with state := prior.state, blocks := [], origin := none, held := 0 } ∧
      t.fill = { s.fill with engine := .idle, lastEnd := some (i, .failed .aborted) } ∧
      t.outputs = s.outputs ++ (s.port.heldFor i).map (fun h => .errorTag h.tag) ∧
      t.port.held = s.port.held.filter (fun h => decide (h.seg ≠ i)) ∧
      t.port.tags = s.port.tags.filter (fun g => decide (g ∉ (s.port.heldFor i).map (·.tag))) ∧
      t.port.readQueue = s.port.readQueue ∧ t.port.arrival = s.port.arrival ∧ t.port.looked = s.port.looked ∧
      t.events = s.events.post (.fillFailed i .aborted (s.port.heldFor i).length) := by
  rw [abortFill_direct, undoFill_errored (s := s.withdrawChunk) hr hheld hroom] at ha hf
  have herrored : ((s.store.undoFill i prior).update i fun r => { r with held := 0 }).seg i =
      some { r with state := prior.state, blocks := [], origin := none, held := 0 } := by
    rw [Store.seg_update_same, Store.undoFill_declared hr prior]; rfl
  have hport : t.port = s.port.dropHeld i := hf .port (by decide)
  exact ⟨ha.stateCode herrored, (congrArg (Store.seg · i) (hf .store (by decide))).trans herrored,
    hf .fill (by decide), hf .outputs (by decide), hport ▸ s.port.dropHeld_held i, hport ▸ s.port.dropHeld_tags i,
    hport ▸ rfl, hport ▸ rfl, hport ▸ rfl, hf .events (by decide)⟩

end

/-- Settles O34: the withdrawal (`Controller.withdrawFill_one`), and the end of the fill by its origin; a direct fill is
undone (`undoFill_store`) with one of three outcomes. -/
theorem fillAbortEffect : Obligations.FillAbortEffect := by
  refine ⟨fun c => ⟨Controller.withdrawFill_none, fun q pre post hl hc hw => Controller.withdrawFill_one hl hc hw⟩,
    fun s b p h => ?_⟩
  have hexec : exec .fillAbort s = runCommand 0x34 ownFillAbort s := rfl
  rw [hexec]
  cases hid : segId? (byteAt p 0).toNat with
  | none =>
    obtain ⟨t, ht, ha, hf⟩ := runCommand_unchanged h (ownFillAbort_badId hid s)
    exact ⟨t, ht, fun _ => ⟨ha, hf⟩, nofun⟩
  | some i =>
    by_cases hc : s.fill.engine.current = some i
    · obtain ⟨o, ho⟩ := Engine.origin_of_current hc
      have hown := ownFillAbort_current hid hc ho
      cases o with
      | queue =>
        obtain ⟨t, ht, ha, hf⟩ := runCommand_answered h hown rfl
        refine ⟨t, ht, nofun, ?_⟩
        rintro _ ⟨⟩
        refine ⟨fun hn => absurd hc hn, fun r hr _ => ⟨fun _ => ⟨?_, hf⟩, fun _ hd => nomatch ho.symm.trans hd⟩⟩
        exact ha.stateCode ((failFill_seg i .aborted s.withdrawChunk i).trans
          ((if_pos rfl).trans (congrArg (Option.map _) hr)))
      | direct prior =>
        obtain ⟨t, ht, ha, hf⟩ := runCommand_answered h hown (abortFill_direct_frame i prior s .mgmt (by decide))
        refine ⟨t, ht, nofun, ?_⟩
        rintro _ ⟨⟩
        refine ⟨fun hn => absurd hc hn, fun r hr _ => ⟨fun hq => (nomatch ho.symm.trans hq), fun _ hd => ?_⟩⟩
        cases ho.symm.trans hd
        obtain ⟨hframe, hctl, hoff, hfree, hres, hsram⟩ := fillAbort_direct_kept hr hf
        refine ⟨hframe, hctl, hoff, hfree, hres, hsram, ?_⟩
        split
        · exact fillAbort_direct_unheld hr hf ha ‹_›
        · rename_i hheld
          split
          · exact fillAbort_direct_queued hr hf ha hheld ‹_›
          · exact fillAbort_direct_errored hr hf ha hheld ‹_›
    · obtain ⟨t, ht, ha, hf⟩ := runCommand_unchanged h (ownFillAbort_notCurrent hid hc)
      refine ⟨t, ht, nofun, ?_⟩
      rintro _ ⟨⟩
      exact ⟨fun _ => ⟨ha, hf⟩, fun r _ h => absurd h hc⟩

end Sys2Proof.Machine
end

section
/-! PROOFS. Host writes that DISCARD counts and that the write queue admits (R104, R109). -/

namespace Sys2Proof.Machine

/-! ### A whole WRITE past the acceptance checks (R54, R102) -/

section

variable {addr : Addr} {data : List Byte} {s : State}
  (hl : s.port.looked = none) (hr : s.startup.stage = .run) (hw : addr.toNat % 32 + data.length ≤ 32)

include hl hr hw

theorem exec_write_miss (h : s.map.lookup addr.toNat data.length = none) :
    exec (.write addr ⟨data, .whole⟩) s = .next (admitWrite addr.toNat data none s) := by
  rw [exec_write, presentWrite_whole hl, acceptWrite_passed hr hw, h]

theorem exec_write_hit {x : Hit} (h : s.map.lookup addr.toNat data.length = some x) :
    exec (.write addr ⟨data, .whole⟩) s = .next (routeWriteHit addr.toNat data x s) := by
  rw [exec_write, presentWrite_whole hl, acceptWrite_passed hr hw, h]

end

/-! ### DISCARD (R104) -/

/-- Settles O14: the count is the one field of the segment's record that the route changes. -/
theorem writeDiscardCounted : Obligations.WriteDiscardCounted := by
  intro addr data s x hl hr hw hx hp
  refine ⟨discardWrite x.seg s, ?_, rfl, Store.seg_update_same .., fun j hj => Store.update_sameOff _ _ _ j hj,
    rfl, rfl, rfl, discardWrite_frame x.seg s⟩
  rw [exec_write_hit hl hr hw hx, routeWriteHit_discard hp]

/-! ### Write-queue admission (R109) -/

theorem routeWriteHit_through {x : Hit} (hp : x.wpol = .through) (addr : Nat) (data : List Byte) (s : State) :
    routeWriteHit addr data x s = admitWrite addr data (some x.seg) s := by simp [routeWriteHit, hp]

section

variable {addr : Nat} {s : State} (data : List Byte) (seg : Option SegId)

theorem admitWrite_range (h : s.memSize ≤ addr) :
    admitWrite addr data seg s = refuseWrite addr data.length .range seg s := if_pos h

theorem admitWrite_stalled (h : ¬ s.memSize ≤ addr) (hs : s.ctl.link = .stalled) :
    admitWrite addr data seg s = refuseWrite addr data.length .linkStalled seg s :=
  (if_neg h).trans (if_pos hs)

theorem admitWrite_full (h : ¬ s.memSize ≤ addr) (hs : s.ctl.link ≠ .stalled)
    (hf : 8 ≤ s.write.queue.length ∨ s.write.highWater ≤ s.write.queue.length) :
    admitWrite addr data seg s = s.emit (.answer .retry) :=
  (if_neg h).trans ((if_neg hs).trans (if_pos hf))

theorem admitWrite_queued (h : ¬ s.memSize ≤ addr) (hs : s.ctl.link ≠ .stalled)
    (hf : ¬ (8 ≤ s.write.queue.length ∨ s.write.highWater ≤ s.write.queue.length)) :
    admitWrite addr data seg s = { s with
      outputs := s.outputs ++ [.answer .wack]
      write := { s.write with queue := s.write.queue ++ [⟨addr, data, false⟩] } } :=
  (if_neg h).trans ((if_neg hs).trans (if_neg hf))

end

/-- Settles O12: a miss and a THROUGH hit reach the same admission, whose three checks come in order. -/
theorem writeAdmission : Obligations.WriteAdmission := by
  intro addr data s seg hl hr hw h
  have hadmit : exec (.write addr ⟨data, .whole⟩) s = .next (admitWrite addr.toNat data seg s) := by
    rcases h with ⟨hx, rfl⟩ | ⟨x, hx, hp, rfl⟩
    · exact exec_write_miss hl hr hw hx
    · rw [exec_write_hit hl hr hw hx, routeWriteHit_through hp]
  rw [hadmit]
  split_ifs with hsize hlink hfull
  · rw [admitWrite_range data seg hsize]; rfl
  · rw [admitWrite_stalled data seg hsize hlink]; rfl
  · rw [admitWrite_full data seg hsize hlink hfull]; rfl
  · rw [admitWrite_queued data seg hsize hlink hfull]

end Sys2Proof.Machine
end

section
/-! PROOFS. The arbiter: the clients' offers and the hazard answer, the five ordered tests, and what a grant does
(R114, R122 to R125). -/

namespace Sys2Proof.Machine

/-! ### Offers and hazard (R114, R122) -/

theorem overlaps_iff (a alen b blen : Nat) : overlaps a alen b blen = true ↔ a < b + blen ∧ b < a + alen := by
  simp [overlaps]

theorem State.offersR_iff (s : State) :
    s.offersR = true ↔ ∃ q rest, s.port.readQueue = q :: rest ∧ q.active = false := by
  unfold State.offersR
  cases s.port.readQueue with
  | nil => simp
  | cons q rest => simp

theorem State.offersW_iff (s : State) :
    s.offersW = true ↔ ∃ w rest, s.write.queue = w :: rest ∧ w.inFlight = false := by
  unfold State.offersW
  cases s.write.queue with
  | nil => simp
  | cons w rest => simp

theorem Controller.offersL_iff_cons (c : Controller) :
    c.offersL = true ↔ ∃ q rest, c.loader = q :: rest ∧ q.granted = false := by
  rw [Controller.offersL_iff]
  cases c.loader with
  | nil => simp
  | cons q rest => simp

theorem State.hazardBlocked_iff (s : State) :
    s.hazardBlocked = true ↔ ∃ q rest w, s.port.readQueue = q :: rest ∧ q.active = false ∧
      w ∈ s.write.queue ∧ q.addr < w.addr + w.data.length ∧ w.addr < q.addr + q.len := by
  unfold State.hazardBlocked
  cases s.port.readQueue with
  | nil => simp
  | cons q rest => simp [overlaps_iff]

/-! ### The five tests (R124) -/

/-- Test 1: W offers, and its queue has reached WRITE_PROMOTE or R's offer is hazard-blocked. -/
def State.PromotesWrite (s : State) : Prop :=
  s.offersW = true ∧ (6 ≤ s.write.queue.length ∨ (s.offersR = true ∧ s.hazardBlocked = true))

/-- Test 2: L offers and has been passed over up to the aging limit. -/
def State.AgedLoader (s : State) : Prop := s.ctl.offersL = true ∧ 8 ≤ s.ctl.aging

/-- Test 3: R offers and is not hazard-blocked. -/
def State.FreeRead (s : State) : Prop := s.offersR = true ∧ s.hazardBlocked = false

theorem arbiterGrant_notIdle {s : State} (h : s.ctl.link ≠ .ready ∨ s.ctl.holder ≠ .none) :
    arbiterGrant s = none :=
  if_neg fun hi => h.elim (· hi.1) (· hi.2)

/-! On a READY and idle link each test is reached where those before it do not apply. -/

section

variable {s : State} (hl : s.ctl.link = .ready) (hh : s.ctl.holder = .none)

include hl hh

theorem arbiterGrant_promoted (h1 : s.PromotesWrite) : arbiterGrant s = some .w :=
  (if_pos ⟨hl, hh⟩).trans (if_pos h1)

theorem arbiterGrant_aged (h1 : ¬ s.PromotesWrite) (h2 : s.AgedLoader) : arbiterGrant s = some .l :=
  (if_pos ⟨hl, hh⟩).trans ((if_neg h1).trans (if_pos h2))

theorem arbiterGrant_read (h1 : ¬ s.PromotesWrite) (h2 : ¬ s.AgedLoader) (h3 : s.FreeRead) :
    arbiterGrant s = some .r :=
  (if_pos ⟨hl, hh⟩).trans ((if_neg h1).trans ((if_neg h2).trans (if_pos h3)))

theorem arbiterGrant_rest (h1 : ¬ s.PromotesWrite) (h2 : ¬ s.AgedLoader) (h3 : ¬ s.FreeRead) :
    arbiterGrant s = if s.offersW then some .w else if s.ctl.offersL then some .l else none :=
  (if_pos ⟨hl, hh⟩).trans ((if_neg h1).trans ((if_neg h2).trans (if_neg h3)))

/-- W by test 1 or test 4. -/
theorem arbiterGrant_w (hw : s.offersW = true) (h : s.PromotesWrite ∨ (¬ s.AgedLoader ∧ ¬ s.FreeRead)) :
    arbiterGrant s = some .w := by
  by_cases h1 : s.PromotesWrite
  · exact arbiterGrant_promoted hl hh h1
  · obtain ⟨h2, h3⟩ := h.resolve_left h1
    rw [arbiterGrant_rest hl hh h1 h2 h3, if_pos hw]

/-- L by test 2 or test 5. -/
theorem arbiterGrant_l (ho : s.ctl.offersL = true) (h1 : ¬ s.PromotesWrite)
    (h : s.AgedLoader ∨ (¬ s.FreeRead ∧ s.offersW = false)) : arbiterGrant s = some .l := by
  by_cases h2 : s.AgedLoader
  · exact arbiterGrant_aged hl hh h1 h2
  · obtain ⟨h3, hw⟩ := h.resolve_left h2
    rw [arbiterGrant_rest hl hh h1 h2 h3, hw, ho]; rfl

theorem arbiterGrant_noTest (h3 : ¬ s.FreeRead) (hw : s.offersW = false) (ho : s.ctl.offersL = false) :
    arbiterGrant s = none := by
  have h1 : ¬ s.PromotesWrite := fun h => Bool.false_ne_true (hw.symm.trans h.1)
  have h2 : ¬ s.AgedLoader := fun h => Bool.false_ne_true (ho.symm.trans h.1)
  rw [arbiterGrant_rest hl hh h1 h2 h3, hw, ho]; rfl

end

/-- A hazard-blocked offer is never granted (R114): R has test 3 alone. -/
theorem arbiterGrant_ne_r {s : State} (h : s.hazardBlocked = true) : arbiterGrant s ≠ some .r := by
  have h3 : ¬ s.FreeRead := fun hf => Bool.false_ne_true (hf.2.symm.trans h)
  by_cases hi : s.ctl.link = .ready ∧ s.ctl.holder = .none
  · obtain ⟨hl, hh⟩ := hi
    by_cases h1 : s.PromotesWrite
    · rw [arbiterGrant_promoted hl hh h1]; nofun
    · by_cases h2 : s.AgedLoader
      · rw [arbiterGrant_aged hl hh h1 h2]; nofun
      · rw [arbiterGrant_rest hl hh h1 h2 h3]
        split_ifs <;> nofun
  · rw [arbiterGrant_notIdle (not_and_or.mp hi)]; nofun

/-! ### What a grant does (R65, R111, R123, R125) -/

theorem grantRead_cons {s : State} {q : ReadEntry} {rest : List ReadEntry} (h : s.port.readQueue = q :: rest) :
    grantRead s = { s with
      outputs := s.outputs ++ [.begins ⟨.read q.addr q.len, s.ctl.divider⟩]
      port := { s.port with readQueue := { q with active := true } :: rest }
      ctl := { s.ctl with
        holder := .r
        tx := some ⟨.read q.addr q.len, s.ctl.divider⟩
        aging := if s.ctl.offersL then min 8 (s.ctl.aging + 1) else s.ctl.aging } } := by
  unfold grantRead; rw [h]; rfl

theorem grantWrite_cons {s : State} {w : WriteEntry} {rest : List WriteEntry} (h : s.write.queue = w :: rest) :
    grantWrite s = { s with
      outputs := s.outputs ++ [.begins ⟨.writeEnable, s.ctl.divider⟩]
      write := { s.write with queue := { w with inFlight := true } :: rest }
      ctl := { s.ctl with
        holder := .w
        tx := some ⟨.writeEnable, s.ctl.divider⟩
        aging := if s.ctl.offersL then min 8 (s.ctl.aging + 1) else s.ctl.aging } } := by
  unfold grantWrite; rw [h]; rfl

theorem grantLoader_cons {s : State} {q : LoaderRequest} {rest : List LoaderRequest}
    (h : s.ctl.loader = q :: rest) : grantLoader s = { s with
      outputs := s.outputs ++ [.begins ⟨.read q.addr q.len, s.ctl.divider⟩]
      ctl := { s.ctl with
        holder := .l
        tx := some ⟨.read q.addr q.len, s.ctl.divider⟩
        aging := 0
        loader := { q with granted := true } :: rest } } := by
  unfold grantLoader; rw [h]; rfl

theorem grantWrite_port (s : State) : (grantWrite s).port = s.port := by
  unfold grantWrite; split <;> rfl

theorem grantLoader_port (s : State) : (grantLoader s).port = s.port := by
  unfold grantLoader; split <;> rfl

/-- The grant to a client. -/
def Client.grant : Client → State → State
  | .r => grantRead
  | .w => grantWrite
  | .l => grantLoader

theorem exec_arbiterChoice_granted {s : State} {c : Client} (h : arbiterGrant s = some c) :
    exec .arbiterChoice s = .next (c.grant s) := by
  show execArbiterChoice s = _
  unfold execArbiterChoice
  rw [h]
  cases c <;> rfl

theorem exec_arbiterChoice_none {s : State} (h : arbiterGrant s = none) : exec .arbiterChoice s = .next s := by
  show execArbiterChoice s = _
  unfold execArbiterChoice
  rw [h]

theorem exec_arbiterChoice_blocked {s : State} (h : s.hazardBlocked = true) :
    ∃ t, exec .arbiterChoice s = .next t ∧ t.port = s.port := by
  cases hg : arbiterGrant s with
  | none => exact ⟨s, exec_arbiterChoice_none hg, rfl⟩
  | some c =>
    refine ⟨c.grant s, exec_arbiterChoice_granted hg, ?_⟩
    cases c with
    | r => exact absurd hg (arbiterGrant_ne_r h)
    | w => exact grantWrite_port s
    | l => exact grantLoader_port s

/-- Settles O35: the offers, then the grant by the tests (`arbiterGrant_w`, `arbiterGrant_l`, `arbiterGrant_read`). -/
theorem arbiterGrants : Obligations.ArbiterGrants := by
  refine ⟨fun s => ⟨s.hazardBlocked_iff, s.offersR_iff, s.offersW_iff, s.ctl.offersL_iff_cons,
    exec_arbiterChoice_blocked⟩, fun s t1 t2 t3 h1 h2 h3 => ?_⟩
  obtain rfl : t1 = s.PromotesWrite := propext h1
  obtain rfl : t2 = s.AgedLoader := propext h2
  obtain rfl : t3 = s.FreeRead := propext h3
  refine ⟨fun h => exec_arbiterChoice_none (arbiterGrant_notIdle h), fun hl hh => ⟨fun w rest hq hw ht => ?_,
    fun q rest hq hg ht1 ht => ?_, fun q rest hq ht3 ht1 ht2 => ?_,
    fun ht3 hw ho => exec_arbiterChoice_none (arbiterGrant_noTest hl hh ht3 hw ho)⟩⟩
  · have hoffer : s.offersW = true := s.offersW_iff.mpr ⟨w, rest, hq, hw⟩
    rw [exec_arbiterChoice_granted (arbiterGrant_w hl hh hoffer ht), Client.grant, grantWrite_cons hq]
  · have hoffer : s.ctl.offersL = true := s.ctl.offersL_iff_cons.mpr ⟨q, rest, hq, hg⟩
    rw [exec_arbiterChoice_granted (arbiterGrant_l hl hh hoffer ht1 ht), Client.grant, grantLoader_cons hq]
  · rw [exec_arbiterChoice_granted (arbiterGrant_read hl hh ht1 ht2 ht3), Client.grant, grantRead_cons hq]

end Sys2Proof.Machine
end

section
/-! PROOFS. What the part sends on the serial link, and the write sequence to the end of its polls (R111, R118, R128,
R129). -/

namespace Sys2Proof.Machine

/-! ### What is sent (R118) -/

theorem addressBytes_eq (a : Nat) : addressBytes a = [byte (a / 65536), byte (a / 256), byte a] := by
  have h : a / 256 / 256 = a / 65536 := Nat.div_div_eq_div_mul a 256 256
  simp [addressBytes, leBytes, h]

theorem State.linkSent_eq {s : State} {t : Transaction} (h : s.ctl.tx = some t) : s.linkSent = t.op.sent := by
  unfold State.linkSent; rw [h]

/-! ### WRITE_ENABLE, WRITE and the polls (R128, R129) -/

theorem exec_writeEnableEnd {s : State} {w : WriteEntry} {rest : List WriteEntry} {d : Nat}
    (htx : s.ctl.tx = some ⟨.writeEnable, d⟩) (hq : s.write.queue = w :: rest) :
    exec .writeEnableEnd s = .next (s.beginTx (.write w.addr w.data)) := by
  show execWriteEnableEnd s = _
  unfold execWriteEnableEnd
  rw [htx, hq]

theorem exec_writeTransactionEnd {s : State} {a d : Nat} {ds : List Byte} (htx : s.ctl.tx = some ⟨.write a ds, d⟩) :
    exec .writeTransactionEnd s = .next { s with ctl := { s.ctl with
      tx := none, link := .busyWait, busyTimer := some s.ctl.busyTimeout, expired := false } } := by
  show execWriteTransactionEnd s = _
  unfold execWriteTransactionEnd
  rw [htx]

theorem exec_pollStart {s : State} (hl : s.ctl.link = .busyWait) (htx : s.ctl.tx = none)
    (hp : s.pins.inReset = false) : exec .pollStart s = .next (s.beginTx .readStatus) := if_pos ⟨hl, htx, hp⟩

theorem exec_busyTimerExpiry {s : State} {d : Nat} (h : s.ctl.busyTimer = some d) :
    exec .busyTimerExpiry s = .next { s with ctl := { s.ctl with expired := true } } := by
  show execBusyTimerExpiry s = _
  unfold execBusyTimerExpiry
  rw [h]

section

variable {s : State} {d : Nat} {status : Byte} (hl : s.ctl.link = .busyWait)
  (htx : s.ctl.tx = some ⟨.readStatus, d⟩)

include hl htx

theorem endPoll_notBusy (hb : status.getLsbD 0 = false) :
    endPoll status s = pollComplete { s with ctl := { s.ctl with tx := none } } :=
  (if_pos ⟨hl, by rw [htx]; rfl⟩).trans (if_pos hb)

/-- A poll that answers busy before the expiry only ends. -/
theorem endPoll_stillBusy (hb : status.getLsbD 0 = true) (he : s.ctl.expired = false) :
    endPoll status s = { s with ctl := { s.ctl with tx := none } } := by
  have hbusy : ¬ busyFlag status = false := by unfold busyFlag; rw [hb]; nofun
  have hexp : ¬ s.ctl.expired = true := by rw [he]; nofun
  exact (if_pos ⟨hl, by rw [htx]; rfl⟩).trans ((if_neg hbusy).trans (if_neg hexp))

end

theorem pollComplete_write {s : State} (h : s.ctl.holder = .w) : pollComplete s = { s with
    ctl := { s.ctl with link := .ready, holder := .none, busyTimer := none }
    write := { s.write with queue := s.write.queue.tail } } := by
  unfold pollComplete; rw [h]

/-- While the link is still in BUSY_WAIT there is no result of a reset poll to take (R145). -/
theorem pollTaken_busyWait {s : State} (h : s.ctl.link = .busyWait) (ahead : List Byte) : pollTaken ahead s = s := by
  rcases pollTaken_spec ahead s with ⟨-, hl, -⟩ | ⟨-, hl, -⟩ | ⟨-, e⟩
  · cases h.symm.trans hl
  · cases h.symm.trans hl
  · exact e

/-- The end of a poll in whose event the sequencer takes nothing (R145, log 20). -/
theorem exec_pollEnds {s u : State} {status : Byte} {ahead : List Byte} {taken : Bool} (h : endPoll status s = u)
    (htaken : taken = true → pollTaken ahead u = u) : exec (.pollEnd (.ends status ahead taken)) s = .next u := by
  subst h
  cases taken with
  | false => rfl
  | true => exact congrArg Host.Outcome.next (htaken rfl)

/-- Settles O38, event by event. -/
theorem writeSequence : Obligations.WriteSequence := by
  refine ⟨fun s t h => ?_, fun s w rest d htx hq => exec_writeEnableEnd htx hq,
    fun s a ds d htx => exec_writeTransactionEnd htx, fun s hl htx hp => exec_pollStart hl htx hp,
    fun s d h => exec_busyTimerExpiry h,
    fun s d status ahead taken hl htx => ⟨fun hb hh htaken => ?_, fun hb he => ?_⟩⟩
  · rw [State.linkSent_eq h]
    cases t.op with
    | read a n => simp [TxOp.sent, addressBytes_eq]
    | writeEnable => rfl
    | write a ds => simp [TxOp.sent, addressBytes_eq]
    | readStatus => rfl
  · refine exec_pollEnds ((endPoll_notBusy hl htx hb).trans (pollComplete_write hh)) fun ht =>
      pollTaken_notPoll ?_ ahead
    exact fun hp => Bool.false_ne_true ((htaken hp).symm.trans ht)
  · refine exec_pollEnds (endPoll_stillBusy hl htx hb he) fun _ => pollTaken_busyWait ?_ ahead
    exact hl

end Sys2Proof.Machine
end

section
/-! PROOFS. The end of the reset poll and the taking of its result (R129, R136, R144 to R146), and LINK_RECOVER
(R133). -/

namespace Sys2Proof.Machine

/-! ### The first boot-record read (R146) -/

/-- The boot record begins a window, 4096 bytes before the end of the memory (R142). -/
theorem State.bootAddress_bounds (s : State) :
    s.bootAddress + 4096 = s.memSize ∧ s.bootAddress % 32 = 0 := by
  obtain ⟨hsize, hwin⟩ := s.memSize_bounds
  unfold State.bootAddress
  omega

theorem State.bootLen_first (s : State) (crc : BitVec 16) (ahead : List Byte) : s.bootLen ⟨[], crc⟩ ahead =
    if 8 < ahead.length ∧ 9 + 12 * field ahead 8 1 < ahead.length then
      min 32 (12 + 12 * field ahead 8 1 + field ahead (9 + 12 * field ahead 8 1) 1)
    else 32 := by
  have hwindow : ∀ n, windowPart s.bootAddress (s.bootAddress + n) = min 32 n := fun n => by
    rw [windowPart_catalog, s.bootAddress_bounds.2]
  unfold State.bootLen bootEnd
  rw [List.length_nil, Nat.add_zero, List.nil_append]
  generalize s.bootAddress = a at hwindow
  split_ifs with h
  · have hend : bootCrcAt ahead + 2 = 12 + 12 * field ahead 8 1 + field ahead (9 + 12 * field ahead 8 1) 1 := by
      unfold bootCrcAt; omega
    exact (hwindow _).trans (by rw [hend])
  · exact hwindow 32

theorem State.bootLen_first_le (s : State) (crc : BitVec 16) (ahead : List Byte) :
    s.bootLen ⟨[], crc⟩ ahead ≤ 32 := by
  rw [State.bootLen_first]
  split_ifs
  · exact Nat.min_le_left ..
  · exact Nat.le_refl _

/-- On a link that is not STALLED the first boot-record read is queued in the loader: it lies inside the memory. -/
theorem requestBoot_first {s : State} {crc : BitVec 16} (h : s.startup.bootRead = some ⟨[], crc⟩)
    (hl : s.ctl.link ≠ .stalled) (ahead : List Byte) : requestBoot ahead s = { s with ctl := { s.ctl with
      loader := s.ctl.loader ++ [⟨.bootRecord, s.bootAddress, s.bootLen ⟨[], crc⟩ ahead, false, false⟩] } } := by
  have hfits : s.bootAddress + s.bootLen ⟨[], crc⟩ ahead ≤ s.memSize := by
    have hlen := s.bootLen_first_le crc ahead
    obtain ⟨hend, -⟩ := s.bootAddress_bounds
    omega
  rw [requestBoot_eq h, List.length_nil, Nat.add_zero, Controller.arrive_queued hl hfits]

/-! ### The sequencer takes the result (R145, R151) -/

/-- Stage RECORD begins, nothing of the record read (R146). -/
def State.enterRecord (s : State) : State :=
  { s with startup := { s.startup with stage := .record, bootRead := some ⟨[], 0xFFFF⟩ } }

theorem pollTaken_ready {s : State} (hs : s.startup.stage = .poll) (hl : s.ctl.link = .ready) (ahead : List Byte) :
    pollTaken ahead s = { s.enterRecord with ctl := { s.ctl with
      loader := s.ctl.loader ++ [⟨.bootRecord, s.bootAddress, s.bootLen ⟨[], 0xFFFF⟩ ahead, false, false⟩] } } := by
  have hrequest : pollTaken ahead s = requestBoot ahead s.enterRecord := by
    unfold pollTaken; rw [if_pos hs, hl]; rfl
  have haddr : s.enterRecord.bootAddress = s.bootAddress := State.bootAddress_congr rfl
  have hlen := State.bootLen_congr (s := s) (t := s.enterRecord) rfl ⟨[], 0xFFFF⟩ ahead
  have hlink : s.enterRecord.ctl.link ≠ .stalled := by
    show s.ctl.link ≠ _
    rw [hl]; nofun
  rw [hrequest, requestBoot_first rfl hlink, haddr, hlen]
  rfl

/-- Start-up has ended with the outcome LINK_STALLED and its STARTUP_DONE (R145, R151). -/
def State.endedStalled (s : State) : State :=
  { s with
    startup := { s.startup with
      stage := .run, outcome := .linkStalled, record := none, bootRead := none, written := 0, committed := false }
    events := s.events.post
      (.startupDone .linkStalled s.map.generation s.startup.failures s.write.resetDiscard) }

theorem pollTaken_stalled {s : State} (hs : s.startup.stage = .poll) (hl : s.ctl.link = .stalled)
    (ho : s.startup.outcome = .ok) (ahead : List Byte) : pollTaken ahead s = s.endedStalled := by
  have hend : pollTaken ahead s = endStartup (s.setOutcome .linkStalled) := by
    unfold pollTaken; rw [if_pos hs, hl]
  rw [hend, State.setOutcome_eq, if_pos ho]
  rfl

/-! ### The poll's end (R129, R136) -/

theorem pollComplete_poll {s : State} (h : s.ctl.holder = .poll) : pollComplete s = { s with
    ctl := { s.ctl with link := .ready, holder := .none, busyTimer := none } } := by
  unfold pollComplete; rw [h]

theorem errorReadQueue_nil {s : State} (h : s.port.readQueue = []) : errorReadQueue s = (s, 0) := by
  have htags : freeTags s.port.tags [] = s.port.tags := by rw [freeTags_eq]; simp
  have hport : { s.port with readQueue := [], tags := s.port.tags } = s.port := by rw [← h]
  unfold errorReadQueue
  rw [h, List.map_nil, List.map_nil, List.append_nil, htags, hport]
  rfl

theorem stallCatalog_none {s : State} (h : s.startup.catalog = none) : stallCatalog s = s := by
  unfold stallCatalog; rw [h]

/-- A stall that finds no read queued, no fill loading and no catalog being read only empties the loader and posts
DN_STALLED (R130, R136). -/
theorem stallClients_quiet {s : State} (hq : s.port.readQueue = []) (he : s.fill.engine = .idle)
    (hc : s.startup.catalog = none) (uncertain : Option (Nat × Nat)) :
    stallClients uncertain s = s.loaderEmptied.post (.dnStalled uncertain 0 false) := by
  have hfill : stallFill s = (s, false) := stallFill_other (by rw [he]; nofun)
  have hcatalog : stallCatalog s.loaderEmptied = s.loaderEmptied := stallCatalog_none hc
  rw [stallClients_eq, errorReadQueue_nil hq, hfill, flushLoader_eq, hcatalog, hq]
  rfl

/-- A reset poll's timeout taken in its own event, with nothing for the clients to lose (R136, R145). -/
theorem exec_resetPollStalls {s : State} {d : Nat} {status : Byte} {ahead : List Byte} (hl : s.ctl.link = .busyWait)
    (hh : s.ctl.holder = .poll) (htx : s.ctl.tx = some ⟨.readStatus, d⟩) (hs : s.startup.stage = .poll)
    (hb : status.getLsbD 0 = true) (he : s.ctl.expired = true) (hq : s.port.readQueue = [])
    (hf : s.fill.engine = .idle) (hc : s.startup.catalog = none) (ho : s.startup.outcome = .ok) :
    exec (.pollEnd (.ends status ahead true)) s =
      .next ((s.timedOut s.write.queue).loaderEmptied.post (.dnStalled none 0 false)).endedStalled := by
  have hstall : endPoll status s = (s.timedOut s.write.queue).loaderEmptied.post (.dnStalled none 0 false) :=
    (endPoll_timeout hl htx hb he (.inr ⟨hh, rfl, rfl⟩)).trans
      (stallClients_quiet (s := s.timedOut s.write.queue) hq hf hc none)
  show Host.Outcome.next (pollTaken ahead (endPoll status s)) = _
  rw [hstall, pollTaken_stalled]
  · exact hs
  · rfl
  · exact ho

/-- Settles O40: the poll's end (`pollComplete_poll`, `exec_resetPollStalls`), and the taking of its result
(`pollTaken_ready`, `pollTaken_stalled`). -/
theorem resetPollEnds : Obligations.ResetPollEnds := by
  refine ⟨fun s d status ahead taken hl hh htx htaken hb => ?_, fun s t status ahead h => ?_,
    fun s ahead m k n hs hm hk hn => ⟨fun hl => ?_, fun hl ho => ?_⟩, fun s ahead h => ?_,
    fun s d status ahead hl hh htx hs hb he hq hf hc ho => ?_⟩
  · refine exec_pollEnds ((endPoll_notBusy hl htx hb).trans (pollComplete_poll hh)) fun ht => pollTaken_notPoll ?_ ahead
    exact fun hp => Bool.false_ne_true ((htaken hp).symm.trans ht)
  · cases h
    rfl
  · have hlen : n = s.bootLen ⟨[], 0xFFFF⟩ ahead := by rw [State.bootLen_first, hn, hk, hm]
    rw [hlen]
    exact congrArg Host.Outcome.next (pollTaken_ready hs hl ahead)
  · exact congrArg Host.Outcome.next (pollTaken_stalled hs hl ho ahead)
  · have hsame : pollTaken ahead s = s := h.elim (pollTaken_notPoll · ahead) (pollTaken_busyWait · ahead)
    exact congrArg Host.Outcome.next hsame
  · refine ⟨_, exec_resetPollStalls hl hh htx hs hb he hq hf hc ho, rfl, rfl, rfl, rfl, ?_⟩
    intro p hp
    cases p <;> simp_all [Part.same, State.endedStalled, State.loaderEmptied, State.timedOut]

/-! ### LINK_RECOVER (R133) -/

theorem exec_linkRecover {s : State} {b : BufId} {p : List Byte} (h : s.handed 0x41 = some (b, p)) :
    exec .linkRecover s = if s.ctl.link = .stalled then .next { s with
        outputs := s.outputs ++ [.begins ⟨.readStatus, s.ctl.divider⟩]
        ctl := { s.ctl with holder := .poll, tx := some ⟨.readStatus, s.ctl.divider⟩ }
        mgmt := { s.mgmt with executor := .busy b .linkRecover } }
      else .next (s.respond b .wrongState []) := by
  show execLinkRecover s = _
  unfold execLinkRecover
  rw [h]
  rfl

/-- The link after the recovery poll: idle, and READY where the device answered not busy. -/
def State.recovered (s : State) (busy : Bool) : State :=
  { s with ctl := { s.ctl with tx := none, holder := .none, link := if busy then .stalled else .ready } }

theorem State.recovered_frame (s : State) (busy : Bool) : SameBut [.ctl] s (s.recovered busy) := by
  intro p hp; cases p <;> simp_all [Part.same, State.recovered]

theorem exec_linkRecoverPollEnd {s : State} {d : Nat} (hl : s.ctl.link = .stalled) (hh : s.ctl.holder = .poll)
    (htx : s.ctl.tx = some ⟨.readStatus, d⟩) (status : Byte) : exec (.linkRecoverPollEnd status) s =
      .next ((s.recovered (status.getLsbD 0)).respondLong .linkRecover
        (if status.getLsbD 0 then .stillBusy else .ok) []) := by
  have hpoll : s.ctl.link = .stalled ∧ s.ctl.holder = .poll ∧ s.ctl.tx.map (·.op) = some .readStatus :=
    ⟨hl, hh, by rw [htx]; rfl⟩
  have hfree : s.freeLink = s.recovered true := by
    unfold State.freeLink State.recovered
    rw [if_pos rfl, ← hl]
  refine (if_pos hpoll).trans ?_
  unfold busyFlag
  cases status.getLsbD 0 with
  | true => rw [hfree]; rfl
  | false => rfl

/-- Settles O41: the command (`exec_linkRecover`) and its poll's end (`exec_linkRecoverPollEnd`). -/
theorem linkRecovers : Obligations.LinkRecovers := by
  refine ⟨fun s b p h hl => ?_, fun s b p h hl => ?_, fun s b f q d status hl hh htx hx hf => ?_⟩
  · rw [exec_linkRecover h, if_pos hl]
  · rw [exec_linkRecover h, if_neg hl]
    exact ⟨_, rfl, State.respond_answered h rfl _ _, s.respond_frame b _ _⟩
  · obtain ⟨hans, hresp⟩ := respondLong_answered (s := s.recovered (status.getLsbD 0)) (phase := .linkRecover) hx hf
      (if status.getLsbD 0 then .stillBusy else .ok) []
    exact ⟨_, exec_linkRecoverPollEnd hl hh htx status, hresp .ctl (by decide), hans.congr rfl rfl,
      ((s.recovered_frame _).mono (by simp)).trans (hresp.mono (by simp))⟩

end Sys2Proof.Machine
end

section
/-! PROOFS. Stage COMMIT and the end of start-up (R150, R151), and how CATALOG_LOAD begins (R138, R139). -/

namespace Sys2Proof.Machine

/-! ### Stage COMMIT (R150, R151) -/

theorem sequencerEvent_commit {s : State} (h : s.startup.stage = .commit) (hc : s.startup.committed = false) :
    sequencerEvent s = commitStartup s := by
  unfold sequencerEvent; rw [h]; exact if_neg (by rw [hc]; nofun)

theorem sequencerEvent_end {s : State} (h : s.startup.stage = .commit) (hc : s.startup.committed = true) :
    sequencerEvent s = endStartup s := by
  unfold sequencerEvent; rw [h]; exact if_pos hc

/-- The end of start-up written out (R151). -/
theorem endStartup_eq (s : State) : endStartup s = { s with
    startup := { s.startup with
      stage := .run, record := none, bootRead := none, written := 0, committed := false }
    events := s.events.post
      (.startupDone s.startup.outcome s.map.generation s.startup.failures s.write.resetDiscard) } := rfl

/-- Where map faulted is set there is no commit (R150). -/
theorem commitStartup_faulted {s : State} (h : s.startup.mapFaulted = true) :
    commitStartup s = { s with startup := { s.startup with committed := true } } := by
  unfold commitStartup; rw [if_pos h]

/-- A consistent SHADOW is installed, with the next generation (R150, R18). -/
theorem commitStartup_consistent {s : State} (h : s.startup.mapFaulted = false)
    (hc : s.map.shadow.Consistent s.store) : commitStartup s = { s with
      map := { s.map with active := s.map.shadow, generation := nextGeneration s.map.generation }
      startup := { s.startup with committed := true } } := by
  unfold commitStartup
  rcases s.map.commit_spec s.store with ⟨-, e⟩ | ⟨hno, -⟩
  · rw [if_neg (by rw [h]; nofun), e]
  · exact absurd hc hno

/-- A SHADOW that is not consistent is not, and the outcome is BAD_MAP while it was OK (R150). -/
theorem commitStartup_inconsistent {s : State} (h : s.startup.mapFaulted = false)
    (hc : ¬ s.map.shadow.Consistent s.store) : commitStartup s = { s with startup := { s.startup with
      committed := true
      outcome := if s.startup.outcome = .ok then .badMap else s.startup.outcome } } := by
  unfold commitStartup
  rcases s.map.commit_spec s.store with ⟨hyes, -⟩ | ⟨-, f, -, e⟩
  · exact absurd hyes hc
  · rw [if_neg (by rw [h]; nofun), e]
    dsimp only
    rw [State.setOutcome_eq]

/-- Settles O46: the commit by what map faulted and the SHADOW bank say, then the end (`endStartup_eq`). -/
theorem startupCommits : Obligations.StartupCommits := by
  refine fun s hs => ⟨fun hc => ?_, fun hc => by rw [sequencerEvent_end hs hc, endStartup_eq]⟩
  have hframe := commitStartup_frame s
  rw [sequencerEvent_commit hs hc]
  cases hf : s.startup.mapFaulted with
  | true =>
    rw [commitStartup_faulted hf] at hframe ⊢
    exact ⟨_, rfl, hframe, fun _ => ⟨rfl, rfl⟩, nofun, nofun⟩
  | false =>
    by_cases hcons : s.map.shadow.Consistent s.store
    · rw [commitStartup_consistent hf hcons, nextGeneration_eq] at hframe ⊢
      exact ⟨_, rfl, hframe, nofun, fun _ _ => ⟨rfl, rfl⟩, fun _ h => absurd hcons h⟩
    · rw [commitStartup_inconsistent hf hcons] at hframe ⊢
      exact ⟨_, rfl, hframe, nofun, fun _ h => absurd h hcons, fun _ _ => ⟨rfl, rfl⟩⟩

/-! ### CATALOG_LOAD (R138, R139) -/

/-- The executor is held by CATALOG_LOAD from buffer `b` (R138, R162). -/
def State.holdsCatalogLoad (s : State) (b : BufId) : State :=
  { s with mgmt := { s.mgmt with executor := .busy b .catalogLoad } }

theorem exec_catalogLoad_busy {s : State} {b : BufId} {p : List Byte} (h : s.handed 0x40 = some (b, p))
    (he : ∃ i o m c, s.fill.engine = .loadingCatalog i o m c) :
    exec .catalogLoad s = .next (s.respond b .busy []) := by
  obtain ⟨i, o, m, c, he⟩ := he
  show execCatalogLoad s = _
  unfold execCatalogLoad
  rw [h]
  dsimp only
  rw [he]

theorem exec_catalogLoad_accepted {s : State} {b : BufId} {p : List Byte} (h : s.handed 0x40 = some (b, p))
    (he : ∀ i o m c, s.fill.engine ≠ .loadingCatalog i o m c) :
    exec .catalogLoad s = .next (readCatalog ⟨field p 0 3, .header []⟩ (s.holdsCatalogLoad b)) := by
  show execCatalogLoad s = _
  unfold execCatalogLoad
  rw [h]
  dsimp only
  split
  · exact absurd ‹_› (he _ _ _ _)
  all_goals rfl

/-- The state in which a CATALOG_LOAD ends in the event that began it: its response placed, no catalog being read. -/
def State.catalogRefused (s : State) (b : BufId) (st : Status) (p : List Byte) : State :=
  State.respondLong { s.holdsCatalogLoad b with startup := { s.startup with catalog := none } } .catalogLoad st p

theorem State.catalogRefused_spec {s : State} {b : BufId} {p : List Byte} (h : s.handed 0x40 = some (b, p))
    (st : Status) (pl : List Byte) : Answered b st pl s (s.catalogRefused b st pl) ∧
      (s.catalogRefused b st pl).startup = { s.startup with catalog := none } ∧
      SameBut [.mgmt, .startup] s (s.catalogRefused b st pl) := by
  obtain ⟨-, q, hq⟩ := State.handed_spec h
  have hbegun : SameBut [.mgmt, .startup] s { s.holdsCatalogLoad b with
      startup := { s.startup with catalog := none } } := by
    intro p hp; cases p <;> simp_all [Part.same, State.holdsCatalogLoad]
  have hbuf : (s.holdsCatalogLoad b).mgmt.buf b = .executing ⟨0x40, p⟩ q := hq ▸ by cases b <;> rfl
  obtain ⟨⟨f, q', hf, hmgmt⟩, hresp⟩ := respondLong_answered (phase := .catalogLoad)
    (s := { s.holdsCatalogLoad b with startup := { s.startup with catalog := none } }) rfl hbuf st pl
  refine ⟨⟨f, q', ?_, hmgmt.trans ?_⟩, hresp .startup (by decide), hbegun.trans (hresp.mono (by simp))⟩
  · rw [← hf]; cases b <;> rfl
  · cases b <;> rfl

/-- A loading whose first request the loader refuses, start-up being over, has ended with its response (R139). -/
theorem catalogEnd_refused {s u : State} {b : BufId} (hrun : s.startup.stage = .run) {c : Option CatalogRead}
    (hu : u = { s.holdsCatalogLoad b with startup := { s.startup with catalog := c } }) :
    (∀ e, catalogEnd (.bad e) u = s.catalogRefused b .badCatalog [e.code]) ∧
      catalogEnd .stalled u = s.catalogRefused b .linkStalled [] := by
  have hstage : ¬ u.startup.stage = .catalog := by rw [hu]; dsimp only; rw [hrun]; nofun
  exact ⟨fun e => (if_neg hstage).trans (by rw [hu]; rfl), (if_neg hstage).trans (by rw [hu]; rfl)⟩

/-- Settles O42: BUSY by the engine, otherwise by what the loader makes of the first request (`readCatalog_spec`). -/
theorem catalogLoadBegins : Obligations.CatalogLoadBegins := by
  rintro s b p _ _ h rfl rfl hrun
  refine ⟨fun he => ⟨_, exec_catalogLoad_busy h he, State.respond_answered h rfl _ _, s.respond_frame b _ _⟩,
    fun he => ?_⟩
  have hexec := exec_catalogLoad_accepted h he
  have hsize : (s.holdsCatalogLoad b).memSize = s.memSize := State.memSize_congr rfl
  obtain ⟨hqueued, hrange, hstalled⟩ :=
    readCatalog_spec (c := ⟨field p 0 3, .header []⟩) (s := s.holdsCatalogLoad b) rfl rfl
  rw [hsize] at hqueued hrange hstalled
  obtain ⟨hbad, hstall⟩ := catalogEnd_refused (b := b) hrun (c := some ⟨field p 0 3, .header []⟩) rfl
  refine ⟨fun hin hl => ?_, fun hout => ?_, fun hin hl => ?_⟩
  · rw [hexec, hqueued hin hl]; rfl
  · obtain ⟨hans, hstartup, hframe⟩ := State.catalogRefused_spec h .badCatalog [0x01]
    exact ⟨_, hexec.trans (congrArg _ ((hrange hout).trans (hbad .range))), hans, hstartup, hframe⟩
  · obtain ⟨hans, hstartup, hframe⟩ := State.catalogRefused_spec h .linkStalled []
    exact ⟨_, hexec.trans (congrArg _ ((hstalled hin hl).trans hstall)), hans, hstartup, hframe⟩

end Sys2Proof.Machine
end

section
/-! PROOFS. The boot record: the requests it is read by, its checks, and what a READ's bytes lead to (R142, R146,
R147). -/

namespace Sys2Proof.Machine

/-! ### Requests (R146) -/

/-- The record's length, once both counts are among the bytes (10.6). -/
theorem bootEnd_eq (bs : List Byte) : bootEnd bs =
    if 8 < bs.length ∧ 9 + 12 * field bs 8 1 < bs.length then
      some (12 + 12 * field bs 8 1 + field bs (9 + 12 * field bs 8 1) 1) else none := by
  unfold bootEnd
  split
  · unfold bootCrcAt; congr 1; omega
  · rfl

/-- A request runs to the window's end, or to the record's (R146). -/
theorem State.bootLen_eq (s : State) (r : BootRead) (ahead : List Byte) : s.bootLen r ahead =
    match bootEnd (r.bytes ++ ahead) with
    | some n => min (32 - (s.bootAddress + r.bytes.length) % 32) (n - r.bytes.length)
    | none => 32 - (s.bootAddress + r.bytes.length) % 32 := by
  unfold State.bootLen windowPart
  generalize s.bootAddress = a
  cases bootEnd (r.bytes ++ ahead) with
  | some n => dsimp only; rw [Nat.add_sub_add_left]; rfl
  | none =>
    dsimp only
    rw [Nat.add_sub_cancel_left]
    exact Nat.min_eq_left (Nat.sub_le _ _)

/-! ### Fields of a record and of its first bytes (10.6) -/

/-- A field reads the same in the first bytes of a record, once its own are among them. -/
theorem field_take (bs : List Byte) {off n k : Nat} (h : off + n ≤ k) : field (bs.take k) off n = field bs off n := by
  unfold field
  rw [List.drop_take, List.take_take, Nat.min_eq_left (by omega)]

theorem field_one (bs : List Byte) {off : Nat} (h : off < bs.length) : field bs off 1 = (bs[off]).toNat := by
  unfold field
  rw [List.drop_eq_getElem_cons h]
  rfl

theorem byteAt_eq (bs : List Byte) {off : Nat} (h : off < bs.length) : byteAt bs off = bs[off] := by
  simp [byteAt, h]

/-- Where the CRC item stands is told by the bytes up to the preload count (10.6). -/
theorem bootCrcAt_take (bs : List Byte) {k : Nat} (h8 : 9 ≤ k) (h : 10 + 12 * field bs 8 1 ≤ k) :
    bootCrcAt (bs.take k) = bootCrcAt bs := by
  unfold bootCrcAt
  rw [field_take bs (show 8 + 1 ≤ k by omega), field_take bs (show 9 + 12 * field bs 8 1 + 1 ≤ k by omega)]

/-! ### The checks, byte by byte (R142, R146) -/

/-- The check that the byte at offset `i` completes fails: the magic, the version, the two counts (R142). -/
def BootFails (bs : List Byte) (i : Nat) : Prop :=
  (i = 3 ∧ field bs 0 4 ≠ bootMagic) ∨ (i = 4 ∧ byteAt bs 4 ≠ 1) ∨ (i = 8 ∧ 32 < field bs 8 1) ∨
    (i = 9 + 12 * field bs 8 1 ∧ 16 < field bs (9 + 12 * field bs 8 1) 1)

/-- The reading with the first `n` bytes of a record behind it (R146). -/
def bootPrefix (bs : List Byte) (n : Nat) : BootRead :=
  ⟨bs.take n, crc16Over crc16Init (bs.take (min n (bootCrcAt bs)))⟩

/-- One byte of a record: its check, if it completes one, then the CRC-16 before the CRC item, the item's own two
bytes, and the verdict with the last (R146). -/
theorem bootByte_at {bs : List Byte} {i : Nat} (h : i < bs.length) (crc : BitVec 16) :
    (BootFails bs i → bootByte (.reading ⟨bs.take i, crc⟩) bs[i] = .bad) ∧
    (¬ BootFails bs i → bootByte (.reading ⟨bs.take i, crc⟩) bs[i] =
      if i < bootCrcAt bs then .reading ⟨bs.take (i + 1), crc16Byte crc bs[i]⟩
      else if i = bootCrcAt bs then .reading ⟨bs.take (i + 1), crc⟩
      else if field (bs.take (i + 1)) (bootCrcAt bs) 2 = crc.toNat then .good (bootContents (bs.take (i + 1)))
      else .bad) := by
  have hlen : (bs.take i).length = i := List.length_take_of_le (Nat.le_of_lt h)
  have hnext : bs.take i ++ [bs[i]] = bs.take (i + 1) := List.take_append_getElem h
  have hend : 10 + 12 * field bs 8 1 ≤ bootCrcAt bs := by unfold bootCrcAt; omega
  have hmagic : i = 3 → field (bs.take (i + 1)) 0 4 = field bs 0 4 := fun e => field_take bs (by omega)
  have hversion : i = 4 → byteAt bs 4 = bs[i] := fun e => by subst e; exact byteAt_eq bs h
  have hcount : 8 ≤ i → field (bs.take (i + 1)) 8 1 = field bs 8 1 := fun e => field_take bs (by omega)
  have hbyte : ∀ n, i = n → field bs n 1 = bs[i].toNat := fun n e => by subst e; exact field_one bs h
  have hplace : 8 ≤ i → 9 + 12 * field bs 8 1 ≤ i → bootCrcAt (bs.take (i + 1)) = bootCrcAt bs := fun h8 e =>
    bootCrcAt_take bs (by omega) (by omega)
  unfold bootByte
  dsimp only
  rw [hlen, hnext]
  constructor
  · rintro (⟨e, hf⟩ | ⟨e, hf⟩ | ⟨e, hf⟩ | ⟨e, hf⟩)
    · exact if_pos ⟨e, hmagic e ▸ hf⟩
    · exact (if_neg (by omega)).trans (if_pos ⟨e, hversion e ▸ hf⟩)
    · exact (if_neg (by omega)).trans ((if_neg (by omega)).trans (if_pos ⟨e, hbyte 8 e ▸ hf⟩))
    · rw [if_neg (by omega), if_neg (by omega), if_neg (by omega), hcount (by omega)]
      exact if_pos ⟨by omega, e, hbyte _ e ▸ hf⟩
  · intro hok
    obtain ⟨hok3, hok4, hok8, hokp⟩ : ¬ (i = 3 ∧ field bs 0 4 ≠ bootMagic) ∧ ¬ (i = 4 ∧ byteAt bs 4 ≠ 1) ∧
        ¬ (i = 8 ∧ 32 < field bs 8 1) ∧
        ¬ (i = 9 + 12 * field bs 8 1 ∧ 16 < field bs (9 + 12 * field bs 8 1) 1) := by
      simpa only [BootFails, not_or] using hok
    rw [if_neg fun ⟨e, hf⟩ => hok3 ⟨e, hmagic e ▸ hf⟩, if_neg fun ⟨e, hf⟩ => hok4 ⟨e, (hversion e).symm ▸ hf⟩,
      if_neg fun ⟨e, hf⟩ => hok8 ⟨e, (hbyte 8 e).symm ▸ hf⟩]
    by_cases h8 : i ≤ 8
    · rw [if_neg (by omega), if_pos (.inr (.inl h8)), if_pos (by omega)]
    · rw [hcount (by omega), if_neg fun ⟨_, e, hf⟩ => hokp ⟨e, (hbyte _ e).symm ▸ hf⟩]
      by_cases hp : i ≤ 9 + 12 * field bs 8 1
      · rw [if_pos (.inl hp), if_pos (by omega)]
      · rw [hplace (by omega) (by omega)]
        exact if_congr (by omega) rfl rfl

theorem BootFails.lt {bs : List Byte} {i : Nat} (h : BootFails bs i) : i < bootCrcAt bs := by
  unfold bootCrcAt
  unfold BootFails at h
  omega

theorem bootBytes_take_succ {bs : List Byte} {n : Nat} (h : n < bs.length) (r : BootRead) :
    bootBytes r (bs.take (n + 1)) = bootByte (bootBytes r (bs.take n)) bs[n] := by
  unfold bootBytes
  rw [← List.take_append_getElem h, List.foldl_append]
  rfl

/-- The CRC-16 advances over a byte that stands before the CRC item, and stands still from there on (R146). -/
theorem bootPrefix_succ {bs : List Byte} {n : Nat} (h : n < bs.length) (hn : n ≤ bootCrcAt bs) :
    bootPrefix bs (n + 1) = if n < bootCrcAt bs then
      ⟨bs.take (n + 1), crc16Byte (bootPrefix bs n).crc bs[n]⟩ else ⟨bs.take (n + 1), (bootPrefix bs n).crc⟩ := by
  unfold bootPrefix
  split
  · rw [Nat.min_eq_left (by omega), Nat.min_eq_left (by omega), crc16Over, crc16Over,
      ← List.take_append_getElem h, List.foldl_append]
    rfl
  · rw [Nat.min_eq_right (by omega), Nat.min_eq_right (by omega)]

/-- The reading before the verdict: given up at the first check that fails, going on otherwise (R146). -/
theorem bootBytes_prefix {bs : List Byte} {n : Nat} (h : n ≤ bs.length) (hn : n ≤ bootCrcAt bs + 1) :
    ((∃ i, i < n ∧ BootFails bs i) → bootBytes ⟨[], crc16Init⟩ (bs.take n) = .bad) ∧
    ((∀ i, i < n → ¬ BootFails bs i) → bootBytes ⟨[], crc16Init⟩ (bs.take n) = .reading (bootPrefix bs n)) := by
  induction n with
  | zero => exact ⟨nofun, fun _ => by simp [bootBytes, bootPrefix, crc16Over]⟩
  | succ n ih =>
    obtain ⟨ihbad, ihgood⟩ := ih (by omega) (by omega)
    obtain ⟨hfail, hpass⟩ := bootByte_at (show n < bs.length by omega) (bootPrefix bs n).crc
    rw [bootBytes_take_succ h]
    constructor
    · rintro ⟨i, hi, hf⟩
      by_cases hearlier : ∃ i, i < n ∧ BootFails bs i
      · rw [ihbad hearlier]; rfl
      · have hin : i = n := by
          by_contra hne
          exact hearlier ⟨i, by omega, hf⟩
        rw [ihgood fun j hj hfj => hearlier ⟨j, hj, hfj⟩]
        exact hfail (hin ▸ hf)
    · intro hok
      rw [ihgood fun i hi => hok i (by omega), bootPrefix_succ h (by omega)]
      refine (hpass (hok n (by omega))).trans ?_
      split
      · rfl
      · exact if_pos (by omega)

/-- A whole record's verdict: a check that failed, or the CRC item against the CRC-16 of the bytes before it (R142,
R146). -/
theorem bootBytes_whole {bs : List Byte} (h : bs.length = bootCrcAt bs + 2) :
    ((∃ i, BootFails bs i) → bootBytes ⟨[], crc16Init⟩ bs = .bad) ∧
    ((∀ i, ¬ BootFails bs i) → bootBytes ⟨[], crc16Init⟩ bs =
      if field bs (bootCrcAt bs) 2 = (crc16Over crc16Init (bs.take (bootCrcAt bs))).toNat then
        .good (bootContents bs) else .bad) := by
  have hlast : bootCrcAt bs + 1 < bs.length := by omega
  have hall : bs.take (bootCrcAt bs + 1 + 1) = bs := List.take_of_length_le (by omega)
  have hread : bootBytes ⟨[], crc16Init⟩ bs =
      bootByte (bootBytes ⟨[], crc16Init⟩ (bs.take (bootCrcAt bs + 1))) bs[bootCrcAt bs + 1] := by
    rw [← bootBytes_take_succ hlast, hall]
  obtain ⟨hbad, hgood⟩ := bootBytes_prefix (n := bootCrcAt bs + 1) (by omega) (Nat.le_refl _)
  rw [hread]
  constructor
  · rintro ⟨i, hf⟩
    rw [hbad ⟨i, Nat.lt_succ_of_lt hf.lt, hf⟩]
    rfl
  · intro hok
    rw [hgood fun i _ => hok i]
    refine ((bootByte_at hlast _).2 (hok _)).trans ?_
    rw [hall, if_neg (by omega), if_neg (by omega), Nat.min_eq_right (Nat.le_succ _)]

/-- A check fails exactly where the magic, the version or one of the counts is wrong (R142). -/
theorem bootFails_iff (bs : List Byte) : (∃ i, BootFails bs i) ↔ field bs 0 4 ≠ bootMagic ∨ byteAt bs 4 ≠ 1 ∨
    32 < field bs 8 1 ∨ 16 < field bs (9 + 12 * field bs 8 1) 1 := by
  unfold BootFails
  simp only [exists_or, exists_eq_left]

/-! ### What a READ's bytes lead to in stage RECORD (R146, R147, R151) -/

/-- A boot-record request that lies inside the memory is queued in the loader of a link that is not STALLED (R123). -/
theorem requestBoot_queued {s : State} {r : BootRead} (h : s.startup.bootRead = some r) {ahead : List Byte}
    (hin : s.bootAddress + r.bytes.length + s.bootLen r ahead ≤ s.memSize) (hl : s.ctl.link ≠ .stalled) :
    requestBoot ahead s = { s with ctl := { s.ctl with loader := s.ctl.loader ++
      [⟨.bootRecord, s.bootAddress + r.bytes.length, s.bootLen r ahead, false, false⟩] } } := by
  rw [requestBoot_eq h, Controller.arrive_queued hl hin]

/-- The record as far as it has been read (R146). -/
def State.setBootRead (s : State) (r : BootRead) : State :=
  { s with startup := { s.startup with bootRead := some r } }

/-- A record not yet read to its end is read on (R146). -/
theorem bootArrived_reading {s : State} {r r' : BootRead} {data : List Byte} (hr : s.startup.bootRead = some r)
    (hb : bootBytes r data = .reading r') {ahead : List Byte}
    (hin : s.bootAddress + r'.bytes.length + s.bootLen r' ahead ≤ s.memSize) (hl : s.ctl.link ≠ .stalled) :
    bootArrived data ahead s = { s.setBootRead r' with ctl := { s.ctl with loader := s.ctl.loader ++
      [⟨.bootRecord, s.bootAddress + r'.bytes.length, s.bootLen r' ahead, false, false⟩] } } := by
  have harrived : bootArrived data ahead s = requestBoot ahead (s.setBootRead r') := by
    unfold bootArrived; rw [hr]; dsimp only; rw [hb]; rfl
  have hsize : (s.setBootRead r').memSize = s.memSize := State.memSize_congr rfl
  have haddr : (s.setBootRead r').bootAddress = s.bootAddress := State.bootAddress_congr rfl
  have hlen : (s.setBootRead r').bootLen r' ahead = s.bootLen r' ahead := State.bootLen_congr rfl r' ahead
  have hin' : (s.setBootRead r').bootAddress + r'.bytes.length + (s.setBootRead r').bootLen r' ahead ≤
      (s.setBootRead r').memSize := by rw [haddr, hlen, hsize]; exact hin
  rw [harrived, requestBoot_queued rfl hin' hl, haddr, hlen]
  rfl

/-- A record that fails a check ends start-up with NO_RECORD (R146, R151). -/
theorem bootArrived_bad {s : State} {r : BootRead} {data : List Byte} (hr : s.startup.bootRead = some r)
    (hb : bootBytes r data = .bad) (ho : s.startup.outcome = .ok) (ahead : List Byte) :
    bootArrived data ahead s = { s with
      startup := { s.startup with
        stage := .run, outcome := .noRecord, record := none, bootRead := none, written := 0, committed := false }
      events := s.events.post
        (.startupDone .noRecord s.map.generation s.startup.failures s.write.resetDiscard) } := by
  unfold bootArrived
  rw [hr]
  dsimp only
  rw [hb]
  dsimp only
  rw [State.setOutcome_eq, if_pos ho, endStartup_eq]

/-- An accepted record is kept in stage CATALOG, which reads its catalog or, without one, leads to stage MAP (R147). -/
theorem bootArrived_good {s : State} {r : BootRead} {data : List Byte} (hr : s.startup.bootRead = some r)
    {b : BootRecord} (hb : bootBytes r data = .good b) (ahead : List Byte) :
    bootArrived data ahead s = stageCatalog b s := by
  unfold bootArrived
  rw [hr]
  dsimp only
  rw [hb]

/-- Settles O44: the request's length (`State.bootLen_eq`), what a READ's bytes lead to, and a whole record's verdict
(`bootBytes_whole`). -/
theorem bootRecordChecked : Obligations.BootRecordChecked := by
  refine ⟨?_, fun s data ahead r hr => ⟨?_, fun hb ho => bootArrived_bad hr hb ho ahead, ?_⟩, ?_⟩
  · rintro s r ahead _ _ _ _ _ rfl rfl rfl rfl rfl
    rw [State.bootLen_eq, bootEnd_eq]
    unfold State.bootAddress
    split_ifs <;> rfl
  · rintro r' _ hb rfl hin hl
    exact bootArrived_reading hr hb hin hl
  · rintro b _ hb rfl
    rw [bootArrived_good hr hb]
    unfold stageCatalog
    exact ⟨fun hc => by rw [hc], fun a hc => by rw [hc]; rfl⟩
  · rintro bs _ _ hlen rfl rfl
    have hend : bs.length = bootCrcAt bs + 2 := by unfold bootCrcAt; omega
    obtain ⟨hbad, hgood⟩ := bootBytes_whole hend
    rw [bootFails_iff] at hbad
    refine ⟨fun h0 h4 hm hk => hgood ?_, hbad⟩
    rw [← not_exists, bootFails_iff]
    rintro (h | h | h | h)
    · exact h h0
    · exact h h4
    · omega
    · omega

end Sys2Proof.Machine
end

section
/-! PROOFS. The queue of waiting commands and the sampled straps, which no operation of the part touches: one lemma per
operation. -/

namespace Sys2Proof.Machine

/-! ### What no operation touches -/

/-- The queue of waiting commands and the sampled straps (R144, R154, log 1). -/
structure Inputs where
  pending : List Instr
  sz : BitVec 3
  ma : BitVec 2
  bootEn : Bool

def State.inputs (s : State) : Inputs := ⟨s.pending, s.pins.sz, s.pins.ma, s.pins.bootEn⟩

theorem SameBut.inputs {ps : List Part} {s t : State} (h : SameBut ps s t) (hq : .pending ∉ ps) (hp : .pins ∉ ps) :
    t.inputs = s.inputs := by
  have hq : t.pending = s.pending := h .pending hq
  have hp : t.pins = s.pins := h .pins hp
  unfold State.inputs
  rw [hq, hp]

/-! ### Host presentations -/

theorem requestFill_inputs (s : State) (i : SegId) : (s.requestFill i).inputs = s.inputs := by
  unfold State.requestFill
  split <;> rfl

theorem readDownstream_inputs (q : ReadRequest) (seg request : Option SegId) (s : State) :
    (readDownstream q seg request s).inputs = s.inputs := by
  unfold readDownstream
  split
  · rfl
  · split
    · rfl
    · split
      · exact requestFill_inputs (s.admitRead q) _
      · rfl

theorem parkRead_inputs (q : ReadRequest) (x : Hit) (absent : Bool) (s : State) :
    (parkRead q x absent s).inputs = s.inputs := by
  unfold parkRead
  split
  · rfl
  · split
    · rfl
    · split <;> rfl

theorem routeHit_inputs (q : ReadRequest) (x : Hit) (s : State) : (routeHit q x s).inputs = s.inputs := by
  unfold routeHit
  split
  · exact readDownstream_inputs ..
  · split
    · rfl
    · exact parkRead_inputs ..
    · rfl
    · exact parkRead_inputs ..
    · exact readDownstream_inputs ..
    · exact readDownstream_inputs ..
    · exact readDownstream_inputs ..
    · rfl

theorem acceptRead_inputs (q : ReadRequest) {onHit : Hit → State → State} {s : State}
    (hh : ∀ x, (onHit x s).inputs = s.inputs) : (acceptRead q onHit s).inputs = s.inputs := by
  unfold acceptRead
  split
  · rfl
  · split
    · rfl
    · split
      · rfl
      · split
        · exact readDownstream_inputs ..
        · exact hh _

theorem presentRead_inputs (q : ReadRequest) (part : PresentPart) (s : State) :
    (presentRead q part s).inputs = s.inputs := by
  rcases presentRead_spec q part s with ⟨-, -, e⟩ | ⟨-, -, e⟩ | ⟨x, -, -, e⟩ | e <;> rw [e]
  · exact acceptRead_inputs q fun x => routeHit_inputs q x s
  · exact acceptRead_inputs q fun x => rfl
  · exact routeHit_inputs q x (s.setLooked none)

theorem admitWrite_inputs (addr : Nat) (data : List Byte) (seg : Option SegId) (s : State) :
    (admitWrite addr data seg s).inputs = s.inputs := by
  unfold admitWrite
  split
  · rfl
  · split
    · rfl
    · split <;> rfl

theorem shadowWrite_inputs (addr : Nat) (data : List Byte) (x : Hit) (s : State) :
    (shadowWrite addr data x s).inputs = s.inputs := by
  unfold shadowWrite
  split
  · split <;> rfl
  · rfl

theorem routeWriteHit_inputs (addr : Nat) (data : List Byte) (x : Hit) (s : State) :
    (routeWriteHit addr data x s).inputs = s.inputs := by
  unfold routeWriteHit
  split
  · rfl
  · exact admitWrite_inputs ..
  · exact shadowWrite_inputs ..
  · rfl

theorem lookWriteHit_inputs (addr : Nat) (data : List Byte) (x : Hit) (s : State) :
    (lookWriteHit addr data x s).inputs = s.inputs := by
  unfold lookWriteHit
  split
  · rfl
  · exact routeWriteHit_inputs ..

theorem acceptWrite_inputs (addr : Nat) (data : List Byte) {onHit : Hit → State → State} {s : State}
    (hh : ∀ x, (onHit x s).inputs = s.inputs) : (acceptWrite addr data onHit s).inputs = s.inputs := by
  unfold acceptWrite
  split
  · rfl
  · split
    · rfl
    · split
      · exact admitWrite_inputs ..
      · exact hh _

theorem presentWrite_inputs (addr : Nat) (data : List Byte) (part : PresentPart) (s : State) :
    (presentWrite addr data part s).inputs = s.inputs := by
  rcases presentWrite_spec addr data part s with ⟨-, -, e⟩ | ⟨-, -, e⟩ | ⟨x, -, -, e⟩ | e <;> rw [e]
  · exact acceptWrite_inputs addr data fun x => routeWriteHit_inputs ..
  · exact acceptWrite_inputs addr data fun x => lookWriteHit_inputs ..
  · exact routeWriteHit_inputs addr data x (s.setLooked none)

/-! ### Fills -/

theorem undoFill_inputs (i : SegId) (prior : Prior) (s : State) : (undoFill i prior s).1.inputs = s.inputs := by
  unfold undoFill
  dsimp only
  split
  · rfl
  · split <;> rfl

theorem startCatalogFill_inputs (i : SegId) (r : SegRecord) (image : Nat) (origin : Origin) (s : State) :
    (startCatalogFill i r image origin s).inputs = s.inputs := by
  unfold startCatalogFill
  split
  · rfl
  · split
    · rfl
    · split
      · rfl
      · exact (requestChunk_frame _).inputs (by decide) (by decide)

theorem takeHead_inputs (s : State) : (takeHead s).inputs = s.inputs := by
  unfold takeHead
  split
  · dsimp only
    split
    · split
      · rfl
      · exact startCatalogFill_inputs ..
    · rfl
  · rfl

theorem beginHostFill_inputs (i : SegId) (origin : Origin) (s : State) :
    (beginHostFill i origin s).state.inputs = s.inputs := by
  unfold beginHostFill
  dsimp only
  split <;> rfl

theorem chunkArrived_inputs (data : List Byte) (s : State) : (chunkArrived data s).1.inputs = s.inputs := by
  unfold chunkArrived
  split
  · dsimp only
    split
    · exact (requestChunk_frame _).inputs (by decide) (by decide)
    · split <;> rfl
  all_goals rfl

/-! ### Catalog loader and start-up sequencer -/

theorem setOutcome_inputs (s : State) (o : StartOutcome) : (s.setOutcome o).inputs = s.inputs := by
  rw [State.setOutcome_eq]; rfl

theorem mapEvent_inputs (s : State) : (mapEvent s).inputs = s.inputs := by
  unfold mapEvent
  split
  · exact (writeBootEntry_frame s _).inputs (by decide) (by decide)
  · rfl

theorem requestPreload_inputs (id : Byte) (s : State) : (requestPreload id s).1.inputs = s.inputs := by
  unfold requestPreload
  split
  · rfl
  · split
    · rfl
    · split
      · rfl
      · exact startCatalogFill_inputs ..
      · exact startCatalogFill_inputs ..
      · rfl

theorem preloadEvent_inputs (s : State) : (preloadEvent s).inputs = s.inputs := by
  unfold preloadEvent
  split
  · split
    · rename_i id _ _
      have hr := requestPreload_inputs id s
      split <;> rename_i e <;> rw [e] at hr <;> exact hr
    · rfl
  · rfl

theorem sequencerEvent_inputs (s : State) : (sequencerEvent s).inputs = s.inputs := by
  rcases sequencerEvent_spec s with ⟨-, e⟩ | ⟨-, e⟩ | ⟨-, -, e⟩ | ⟨-, -, e⟩ | ⟨-, -, -, e⟩ <;> rw [e]
  · exact mapEvent_inputs s
  · exact preloadEvent_inputs s
  · rfl
  · exact (commitStartup_frame s).inputs (by decide) (by decide)

theorem respondLong_inputs (s : State) (phase : Phase) (st : Status) (p : List Byte) :
    (s.respondLong phase st p).inputs = s.inputs :=
  (respondLong_frame s phase st p).inputs (by decide) (by decide)

theorem catalogEnd_inputs (result : CatalogResult) (s : State) : (catalogEnd result s).inputs = s.inputs := by
  unfold catalogEnd
  dsimp only
  split
  · split
    · rfl
    all_goals exact setOutcome_inputs { s with startup := { s.startup with catalog := none } } .badCatalog
  · split <;> exact respondLong_inputs ..

theorem requestCatalog_inputs (s : State) : (requestCatalog s).inputs = s.inputs := by
  unfold requestCatalog
  split
  · split
    · rfl
    · exact catalogEnd_inputs ..
    · exact catalogEnd_inputs ..
  · rfl

theorem readCatalog_inputs (c : CatalogRead) (s : State) : (readCatalog c s).inputs = s.inputs :=
  requestCatalog_inputs _

theorem applyNext_inputs (s : State) : (applyNext s).inputs = s.inputs := by
  unfold applyNext
  split
  · rename_i next d rest m k _
    have hd := (applyDescriptor_frame (s, m, k) d).inputs (by decide) (by decide)
    split <;> rename_i e _ <;> rw [e] at hd
    · exact (catalogEnd_inputs ..).trans hd
    · exact hd
  · exact catalogEnd_inputs ..
  all_goals rfl

theorem nextEvent_inputs (s : State) : (nextEvent s).inputs = s.inputs := by
  rcases nextEvent_spec s with ⟨_, _, _, _, -, e⟩ | ⟨-, e⟩ <;> rw [e]
  · exact applyNext_inputs s
  · exact sequencerEvent_inputs s

theorem goOn_inputs (n : Nat) (s : State) : (goOn n s).inputs = s.inputs := by
  induction n generalizing s with
  | zero => rfl
  | succ n ih => exact (ih _).trans (nextEvent_inputs s)

theorem headerArrived_inputs (next : Nat) (bs : List Byte) (s : State) :
    (headerArrived next bs s).inputs = s.inputs := by
  unfold headerArrived
  dsimp only
  split
  · exact catalogEnd_inputs ..
  · split
    · exact catalogEnd_inputs ..
    · exact readCatalog_inputs ..

theorem descriptorsArrived_inputs (next count : Nat) (h c : BitVec 16) (bs : List Byte) (s : State) :
    (descriptorsArrived next count h bs c s).inputs = s.inputs := by
  unfold descriptorsArrived
  split
  · rfl
  · exact catalogEnd_inputs ..

theorem catalogArrived_inputs (data : List Byte) (s : State) : (catalogArrived data s).inputs = s.inputs := by
  unfold catalogArrived
  split
  · dsimp only
    split
    · exact readCatalog_inputs ..
    · exact headerArrived_inputs ..
  · dsimp only
    split
    · exact readCatalog_inputs ..
    · exact descriptorsArrived_inputs ..
  all_goals rfl

theorem State.setCtl_inputs (s : State) (c : Controller) : State.inputs { s with ctl := c } = s.inputs := rfl

theorem requestBoot_inputs (ahead : List Byte) (s : State) : (requestBoot ahead s).inputs = s.inputs := by
  cases h : s.startup.bootRead with
  | none => unfold requestBoot; rw [h]
  | some r => rw [requestBoot_eq h]; exact State.setCtl_inputs ..

theorem stageCatalog_inputs (r : BootRecord) (s : State) : (stageCatalog r s).inputs = s.inputs := by
  unfold stageCatalog
  dsimp only
  split
  · exact readCatalog_inputs ..
  · rfl

theorem bootArrived_inputs (data ahead : List Byte) (s : State) : (bootArrived data ahead s).inputs = s.inputs := by
  unfold bootArrived
  split
  · split
    · exact requestBoot_inputs ..
    · exact setOutcome_inputs s .noRecord
    · exact stageCatalog_inputs ..
  · rfl

theorem pollTaken_inputs (ahead : List Byte) (s : State) : (pollTaken ahead s).inputs = s.inputs := by
  rcases pollTaken_spec ahead s with ⟨-, -, e⟩ | ⟨-, -, e⟩ | ⟨-, e⟩ <;> rw [e]
  · exact requestBoot_inputs ..
  · exact setOutcome_inputs s .linkStalled

theorem preloadEnded_inputs (failed : Bool) (taken : Nat) (s : State) :
    (preloadEnded failed taken s).inputs = s.inputs := by
  rcases preloadEnded_spec failed taken s with ⟨-, e⟩ | ⟨-, e⟩ <;> rw [e]
  exact goOn_inputs ..

/-! ### The serial link -/

theorem deliverLoader_inputs (q : LoaderRequest) (data ahead : List Byte) (taken : Nat) (s : State) :
    (deliverLoader q data ahead taken s).inputs = s.inputs := by
  unfold deliverLoader
  split
  · rfl
  · split
    · have hc := chunkArrived_inputs data s
      split <;> rename_i e <;> rw [e] at hc
      · exact hc
      · exact (preloadEnded_inputs ..).trans hc
      · exact (preloadEnded_inputs ..).trans hc
    · exact (goOn_inputs ..).trans (catalogArrived_inputs ..)
    · exact (goOn_inputs ..).trans (bootArrived_inputs ..)

theorem completeRead_inputs (data : List Byte) (s : State) : (completeRead data s).inputs = s.inputs := by
  unfold completeRead
  split <;> rfl

theorem completeLoader_inputs (data ahead : List Byte) (taken : Nat) (s : State) :
    (completeLoader data ahead taken s).inputs = s.inputs := by
  unfold completeLoader
  split
  · exact deliverLoader_inputs ..
  · rfl

theorem endRead_inputs (data ahead : List Byte) (taken : Nat) (s : State) :
    (endRead data ahead taken s).inputs = s.inputs := by
  unfold endRead
  split
  · split
    · split
      · exact completeRead_inputs ..
      · exact completeLoader_inputs ..
      all_goals rfl
    · rfl
  all_goals rfl

theorem stallCatalog_inputs (s : State) : (stallCatalog s).inputs = s.inputs := by
  unfold stallCatalog
  split
  · exact catalogEnd_inputs ..
  · exact catalogEnd_inputs ..
  all_goals rfl

theorem stallClients_inputs (uncertain : Option (Nat × Nat)) (s : State) :
    (stallClients uncertain s).inputs = s.inputs := by
  have hfill := (stallFill_frame (errorReadQueue s).1).inputs (by decide) (by decide)
  rw [stallClients_eq]
  exact (stallCatalog_inputs _).trans hfill

theorem removeUncertain_inputs (s : State) : (removeUncertain s).1.inputs = s.inputs := by
  unfold removeUncertain
  split
  · split <;> rfl
  · rfl

theorem pollTimeout_inputs (s : State) : (pollTimeout s).inputs = s.inputs := by
  unfold pollTimeout
  split
  · exact (stallClients_inputs ..).trans (removeUncertain_inputs s.stallLink)
  · exact stallClients_inputs none s.stallLink
  all_goals rfl

theorem pollComplete_inputs (s : State) : (pollComplete s).inputs = s.inputs := by
  unfold pollComplete
  split <;> rfl

theorem endPoll_inputs (status : Byte) (s : State) : (endPoll status s).inputs = s.inputs := by
  unfold endPoll
  split
  · dsimp only
    split
    · exact pollComplete_inputs { s with ctl := { s.ctl with tx := none } }
    · split
      · exact pollTimeout_inputs { s with ctl := { s.ctl with tx := none } }
      · rfl
  · rfl

end Sys2Proof.Machine
end

section
/-! PROOFS. Every command answers a next state, with the waiting commands and, but for PIN_RESET_RELEASE, the sampled
straps as they were (R144, R154). -/

namespace Sys2Proof.Machine

/-- A command answers a next state with the waiting commands and the straps as they were. -/
def Answers (s : State) (o : Host.Outcome State Fault Refusal) : Prop := ∃ t, o = .next t ∧ t.inputs = s.inputs

theorem Answers.next {s t : State} (h : t.inputs = s.inputs) : Answers s (.next t) := ⟨t, rfl, h⟩

theorem Answers.unchanged (s : State) : Answers s (.next s) := .next rfl

/-! ### Owners of management commands -/

theorem ownSetParam_inputs (p : List Byte) (s : State) : (ownSetParam p s).state.inputs = s.inputs := by
  unfold ownSetParam
  split
  · rename_i t h
    unfold setParam at h
    split at h
    case h_6 => cases h
    all_goals split at h <;> cases h; rfl
  · rfl

theorem ownEventRead_inputs (p : List Byte) (s : State) : (ownEventRead p s).state.inputs = s.inputs := by
  unfold ownEventRead
  dsimp only
  split <;> rfl

theorem ownMapWrite_inputs (p : List Byte) (s : State) : (ownMapWrite p s).state.inputs = s.inputs := by
  unfold ownMapWrite
  split <;> rfl

theorem ownMapClear_inputs (p : List Byte) (s : State) : (ownMapClear p s).state.inputs = s.inputs := by
  unfold ownMapClear
  split
  · rfl
  · split <;> rfl

theorem ownMapRead_inputs (p : List Byte) (s : State) : (ownMapRead p s).state.inputs = s.inputs := by
  unfold ownMapRead
  split
  · split <;> rfl
  · rfl

theorem ownMapCommit_inputs (p : List Byte) (s : State) : (ownMapCommit p s).state.inputs = s.inputs := by
  unfold ownMapCommit
  split <;> rfl

theorem ownSegDeclare_inputs (p : List Byte) (s : State) : (ownSegDeclare p s).state.inputs = s.inputs := by
  cases hid : segId? (byteAt p 0).toNat with
  | none => rw [ownSegDeclare_badId hid]; rfl
  | some i =>
    rw [ownSegDeclare_legalId hid]
    split
    · rfl
    · split <;> rfl

/-- An owner that answers for declared segments alone leaves the inputs alone where each of its answers does (R41). -/
theorem withDeclared_inputs {p : List Byte} {s : State} {k : SegId → SegRecord → Reply}
    (hk : ∀ i r, (k i r).state.inputs = s.inputs) : (withDeclared p s k).state.inputs = s.inputs :=
  withDeclared_state (P := fun t => t.inputs = s.inputs) rfl hk

theorem ownSegRelease_inputs (p : List Byte) (s : State) : (ownSegRelease p s).state.inputs = s.inputs := by
  unfold ownSegRelease
  split
  · refine withDeclared_inputs fun i r => ?_
    split <;> rfl
  · rfl

theorem ownSegDrop_inputs (p : List Byte) (s : State) : (ownSegDrop p s).state.inputs = s.inputs := by
  unfold ownSegDrop
  split
  · refine withDeclared_inputs fun i r => ?_
    split
    · split <;> rfl
    all_goals rfl
  · rfl

theorem ownSegPin_inputs (p : List Byte) (s : State) : (ownSegPin p s).state.inputs = s.inputs := by
  unfold ownSegPin
  split
  · exact withDeclared_inputs fun _ _ => rfl
  · rfl

theorem ownSegQuery_inputs (p : List Byte) (s : State) : (ownSegQuery p s).state.inputs = s.inputs := by
  unfold ownSegQuery
  split <;> rfl

theorem ownSegRead_inputs (p : List Byte) (s : State) : (ownSegRead p s).state.inputs = s.inputs := by
  unfold ownSegRead
  refine withDeclared_inputs fun i r => ?_
  dsimp only
  split
  · rfl
  · split
    · rfl
    · split <;> rfl

theorem ownPreload_inputs (p : List Byte) (s : State) : (ownPreload p s).state.inputs = s.inputs := by
  unfold ownPreload
  refine withDeclared_inputs fun i r => ?_
  split
  any_goals rfl
  all_goals split <;> rfl

theorem ownFillBegin_inputs (p : List Byte) (s : State) : (ownFillBegin p s).state.inputs = s.inputs := by
  unfold ownFillBegin
  refine withDeclared_inputs fun i r => ?_
  split
  · split
    · exact beginHostFill_inputs ..
    · rfl
  · rfl
  · rfl
  · split
    · exact beginHostFill_inputs ..
    · exact beginHostFill_inputs ..
    all_goals rfl

theorem ownFillData_inputs (p : List Byte) (s : State) : (ownFillData p s).state.inputs = s.inputs := by
  unfold ownFillData
  split
  · dsimp only
    split
    · rfl
    · split <;> rfl
  all_goals rfl

theorem ownFillEnd_inputs (p : List Byte) (s : State) : (ownFillEnd p s).state.inputs = s.inputs := by
  unfold ownFillEnd
  split
  · dsimp only
    split
    · rfl
    · split <;> rfl
  all_goals rfl

theorem abortFill_inputs (i : SegId) (origin : Origin) (s : State) : (abortFill i origin s).1.inputs = s.inputs := by
  cases origin with
  | queue => rfl
  | direct prior => exact undoFill_inputs i prior s.withdrawChunk

theorem ownFillAbort_inputs (p : List Byte) (s : State) : (ownFillAbort p s).state.inputs = s.inputs := by
  unfold ownFillAbort
  split
  · rfl
  · split
    · split
      · exact abortFill_inputs ..
      · rfl
    · rfl

/-! ### One lemma per command -/

theorem runCommand_answers {s : State} (code : Byte) {owner : List Byte → State → Reply}
    (ho : ∀ p, (owner p s).state.inputs = s.inputs) : Answers s (runCommand code owner s) := by
  cases h : s.handed code with
  | none => rw [runCommand_none h]; exact .unchanged s
  | some x => rw [runCommand_handed h]; exact .next (ho x.2)

/-- A pin reset leaves the sampled straps alone (R144). -/
theorem execPinReset_answers (powerOn : Bool) (s : State) : Answers s (execPinReset powerOn s) := by
  have hcut := s.cutOff_frame.inputs (by decide) (by decide)
  unfold execPinReset
  split
  · exact .unchanged s
  · exact .next hcut

/-- A release samples the straps, and leaves the waiting commands alone. -/
theorem execPinResetRelease_pending (sz : BitVec 3) (ma : BitVec 2) (bootEn : Bool) (s : State) :
    ∃ t, execPinResetRelease sz ma bootEn s = .next t ∧ t.pending = s.pending := by
  unfold execPinResetRelease
  split
  · refine ⟨_, rfl, ?_⟩
    rw [beginStartup_eq]
    rfl
  · exact ⟨s, rfl, rfl⟩

theorem execReset_answers (s : State) : Answers s (execReset s) := by
  unfold execReset
  split
  · refine .next ?_
    rw [softReset_eq]
    rfl
  · exact .unchanged s

theorem execArbiterChoice_answers (s : State) : Answers s (execArbiterChoice s) := by
  unfold execArbiterChoice grantRead grantWrite grantLoader
  split
  any_goals split
  all_goals exact .next rfl

theorem execReadTransactionEnd_answers (data : ReadEnd) (s : State) : Answers s (execReadTransactionEnd data s) := by
  cases data with
  | ends bytes ahead taken => exact .next (endRead_inputs ..)
  | goesOn count => exact .next (goOn_inputs ..)

theorem execWriteEnableEnd_answers (s : State) : Answers s (execWriteEnableEnd s) := by
  unfold execWriteEnableEnd
  split <;> exact .next rfl

theorem execWriteTransactionEnd_answers (s : State) : Answers s (execWriteTransactionEnd s) := by
  unfold execWriteTransactionEnd
  split <;> exact .next rfl

theorem execPollStart_answers (s : State) : Answers s (execPollStart s) := by
  unfold execPollStart
  split <;> exact .next rfl

theorem execBusyTimerExpiry_answers (s : State) : Answers s (execBusyTimerExpiry s) := by
  unfold execBusyTimerExpiry
  split <;> exact .next rfl

theorem execPollEnd_answers (status : PollAnswer) (s : State) : Answers s (execPollEnd status s) := by
  cases status with
  | ends status ahead taken =>
    refine .next ?_
    split
    · exact (pollTaken_inputs ..).trans (endPoll_inputs ..)
    · exact endPoll_inputs ..
  | taken ahead => exact .next (pollTaken_inputs ..)

theorem startWrite_inputs (addr : BitVec 7) (s : State) : (startWrite addr s).inputs = s.inputs := by
  unfold startWrite
  dsimp only
  split
  · split <;> rfl
  · rfl

theorem receiveBytes_inputs (data : List Byte) (s : State) : (data.foldl receiveByte s).inputs = s.inputs :=
  (receiveBytes_frame data s).inputs (by decide) (by decide)

theorem execWriteTransferStart_answers (addr : WritePart) (s : State) :
    Answers s (execWriteTransferStart addr s) := by
  unfold execWriteTransferStart
  split
  · exact .next ((receiveBytes_inputs ..).trans (startWrite_inputs ..))
  · exact .next (receiveBytes_inputs ..)

theorem execFrameComplete_answers (code : Byte) (payload : List Byte) (check : Byte) (s : State) :
    Answers s (execFrameComplete code payload check s) := by
  unfold execFrameComplete
  split
  · split <;> exact .next rfl
  · exact .unchanged s

theorem execFrameDiscard_answers (cause : DiscardCause) (s : State) : Answers s (execFrameDiscard cause s) := by
  unfold execFrameDiscard
  split
  · split
    · split <;> exact .next rfl
    · exact .next rfl
  · exact .unchanged s

theorem execReadTransfer_answers (addr : Option (BitVec 7)) (count : Nat) (s : State) :
    Answers s (execReadTransfer addr count s) := by
  unfold execReadTransfer
  split
  · dsimp only
    split <;> exact .next rfl
  · split <;> exact .next rfl

theorem takeBuffer_inputs (b : BufId) (f : Frame) (seq : BitVec 8) (ok : Bool) (s : State) :
    (takeBuffer b f seq ok s).inputs = s.inputs := by
  unfold takeBuffer
  dsimp only
  split <;> rfl

theorem execExecutorTake_answers (s : State) : Answers s (execExecutorTake s) := by
  unfold execExecutorTake
  split
  · split
    · split
      · exact .next (takeBuffer_inputs ..)
      all_goals exact .unchanged s
    · exact .unchanged s
  · exact .unchanged s

theorem execStatus_answers (owners : Nat) (s : State) : Answers s (execStatus owners s) := by
  unfold execStatus
  split
  · dsimp only
    split <;> exact .next rfl
  · exact .unchanged s

theorem execCatalogLoad_answers (s : State) : Answers s (execCatalogLoad s) := by
  unfold execCatalogLoad
  split
  · split
    · exact .next rfl
    all_goals exact .next (readCatalog_inputs ..)
  · exact .unchanged s

theorem execLinkRecover_answers (s : State) : Answers s (execLinkRecover s) := by
  unfold execLinkRecover
  split
  · split <;> exact .next rfl
  · exact .unchanged s

theorem execLinkRecoverPollEnd_answers (status : Byte) (s : State) :
    Answers s (execLinkRecoverPollEnd status s) := by
  unfold execLinkRecoverPollEnd
  split
  · split <;> exact .next (respondLong_inputs ..)
  · exact .unchanged s

theorem execStartTimerExpiry_answers (s : State) : Answers s (execStartTimerExpiry s) := by
  unfold execStartTimerExpiry
  split <;> exact .next rfl

theorem execGapTimerExpiry_answers (s : State) : Answers s (execGapTimerExpiry s) := by
  unfold execGapTimerExpiry
  split <;> exact .next rfl

/-! ### Every command -/

theorem exec_answers (c : Instr) (hc : ∀ sz ma be, c ≠ .pinResetRelease sz ma be) (s : State) :
    Answers s (exec c s) := by
  cases c with
  | pinReset powerOn => exact execPinReset_answers powerOn s
  | pinResetRelease sz ma be => exact absurd rfl (hc sz ma be)
  | read tag addr len => exact .next (presentRead_inputs ..)
  | write addr data => exact .next (presentWrite_inputs ..)
  | arbiterChoice => exact execArbiterChoice_answers s
  | readTransactionEnd data => exact execReadTransactionEnd_answers data s
  | writeEnableEnd => exact execWriteEnableEnd_answers s
  | writeTransactionEnd => exact execWriteTransactionEnd_answers s
  | pollStart => exact execPollStart_answers s
  | busyTimerExpiry => exact execBusyTimerExpiry_answers s
  | pollEnd status => exact execPollEnd_answers status s
  | writeTransferStart addr => exact execWriteTransferStart_answers addr s
  | frameComplete code payload check => exact execFrameComplete_answers code payload check s
  | frameDiscard cause => exact execFrameDiscard_answers cause s
  | readTransfer addr count => exact execReadTransfer_answers addr count s
  | executorTake => exact execExecutorTake_answers s
  | identify => exact runCommand_answers 0x01 fun _ => rfl
  | status owners => exact execStatus_answers owners s
  | setParam => exact runCommand_answers 0x03 fun p => ownSetParam_inputs p s
  | reset => exact execReset_answers s
  | eventRead => exact runCommand_answers 0x05 fun p => ownEventRead_inputs p s
  | mapWrite => exact runCommand_answers 0x10 fun p => ownMapWrite_inputs p s
  | mapClear => exact runCommand_answers 0x11 fun p => ownMapClear_inputs p s
  | mapCopy => exact runCommand_answers 0x12 fun _ => rfl
  | mapRead => exact runCommand_answers 0x13 fun p => ownMapRead_inputs p s
  | mapCommit => exact runCommand_answers 0x14 fun p => ownMapCommit_inputs p s
  | segDeclare => exact runCommand_answers 0x20 fun p => ownSegDeclare_inputs p s
  | segRelease => exact runCommand_answers 0x21 fun p => ownSegRelease_inputs p s
  | segDrop => exact runCommand_answers 0x22 fun p => ownSegDrop_inputs p s
  | segPin => exact runCommand_answers 0x23 fun p => ownSegPin_inputs p s
  | segQuery => exact runCommand_answers 0x24 fun p => ownSegQuery_inputs p s
  | segRead => exact runCommand_answers 0x25 fun p => ownSegRead_inputs p s
  | preload => exact runCommand_answers 0x30 fun p => ownPreload_inputs p s
  | fillBegin => exact runCommand_answers 0x31 fun p => ownFillBegin_inputs p s
  | fillData => exact runCommand_answers 0x32 fun p => ownFillData_inputs p s
  | fillEnd => exact runCommand_answers 0x33 fun p => ownFillEnd_inputs p s
  | fillAbort => exact runCommand_answers 0x34 fun p => ownFillAbort_inputs p s
  | catalogLoad => exact execCatalogLoad_answers s
  | linkRecover => exact execLinkRecover_answers s
  | linkRecoverPollEnd status => exact execLinkRecoverPollEnd_answers status s
  | takeHead => exact .next (takeHead_inputs s)
  | startTimerExpiry => exact execStartTimerExpiry_answers s
  | gapTimerExpiry => exact execGapTimerExpiry_answers s

/-- Settles O2: a release by `execPinResetRelease_pending`, every other command by `exec_answers`. -/
theorem everyCommandAnswers : Obligations.EveryCommandAnswers := by
  intro c s
  by_cases hc : ∃ sz ma be, c = .pinResetRelease sz ma be
  · obtain ⟨sz, ma, be, rfl⟩ := hc
    obtain ⟨t, ht, hpending⟩ := execPinResetRelease_pending sz ma be s
    exact ⟨t, ht, hpending, fun h => absurd rfl (h sz ma be)⟩
  · obtain ⟨t, ht, hinputs⟩ := exec_answers c (fun sz ma be h => hc ⟨sz, ma, be, h⟩) s
    simp only [State.inputs, Inputs.mk.injEq] at hinputs
    obtain ⟨hpending, hsz, hma, hboot⟩ := hinputs
    exact ⟨t, ht, hpending, fun _ => ⟨hsz, hma, hboot⟩⟩

end Sys2Proof.Machine
end

section
/-! PROOFS. The command buffers and the two kinds of I2C transfer (R154 to R159, R163, R164). -/

namespace Sys2Proof.Machine

/-! ### The command buffers at the end of a transfer (R154, R156) -/

@[simp] theorem Mgmt.buf_endTransfer (m : Mgmt) (b : BufId) : m.endTransfer.buf b = (m.buf b).discard := by
  cases b <;> rfl

@[simp] theorem CmdBuffer.discard_ne_receiving (x : CmdBuffer) (bytes : List Byte) : x.discard ≠ .receiving bytes := by
  cases x <;> nofun

@[simp] theorem CmdBuffer.answeredSeq_discard (x : CmdBuffer) : x.discard.answeredSeq = x.answeredSeq := by
  cases x <;> rfl

/-- Between transfers no buffer is RECEIVING. -/
theorem Mgmt.endTransfer_notReceiving (m : Mgmt) (b : BufId) (bytes : List Byte) :
    m.endTransfer.buf b ≠ .receiving bytes := by simp

@[simp] theorem Mgmt.setBuf_seq (m : Mgmt) (b : BufId) (x : CmdBuffer) : (m.setBuf b x).seq = m.seq := by
  cases b <;> rfl
@[simp] theorem Mgmt.setBuf_mark (m : Mgmt) (b : BufId) (x : CmdBuffer) : (m.setBuf b x).mark = m.mark := by
  cases b <;> rfl
@[simp] theorem Mgmt.setBuf_executor (m : Mgmt) (b : BufId) (x : CmdBuffer) :
    (m.setBuf b x).executor = m.executor := by cases b <;> rfl
@[simp] theorem Mgmt.setBuf_scan (m : Mgmt) (b : BufId) (x : CmdBuffer) : (m.setBuf b x).scan = m.scan := by
  cases b <;> rfl
@[simp] theorem Mgmt.setBuf_reading (m : Mgmt) (b : BufId) (x : CmdBuffer) :
    (m.setBuf b x).reading = m.reading := by cases b <;> rfl
@[simp] theorem Mgmt.setBuf_refusing (m : Mgmt) (b : BufId) (x : CmdBuffer) :
    (m.setBuf b x).refusing = m.refusing := by cases b <;> rfl

/-- What the buffers hold rests on the two buffers alone. -/
theorem Mgmt.buf_congr {m m' : Mgmt} (hA : m'.bufA = m.bufA) (hB : m'.bufB = m.bufB) (b : BufId) :
    m'.buf b = m.buf b := by cases b <;> assumption

/-- What the events of the management link's transfers leave alone. -/
theorem State.setLink_frame (s : State) (os : List Output) (m : Mgmt) :
    SameBut [.outputs, .mgmt] s { s with outputs := os, mgmt := m } := by
  intro p hp; cases p <;> simp_all [Part.same]

/-! ### The address byte (R154) -/

theorem State.acknowledges_own {s : State} (h : s.pins.inReset = false) : s.acknowledges s.targetAddress = true := by
  simp [State.acknowledges, h]

theorem State.acknowledges_other {s : State} {a : BitVec 7} (h : s.pins.inReset = true ∨ a ≠ s.targetAddress) :
    s.acknowledges a = false := by
  rcases h with h | h <;> simp [State.acknowledges, h]

/-! ### The buffer of a write transfer (R159) -/

theorem Mgmt.choose_empty {m : Mgmt} {b : BufId} (h : m.buf b = .empty) (ho : m.buf b.other = .empty → b = m.mark) :
    m.choose = some b := by
  cases b with
  | A =>
    have hA : m.bufA = .empty := h
    cases hB : m.bufB with
    | empty => simp [Mgmt.choose, hA, hB, ← ho hB]
    | _ => simp [Mgmt.choose, hA, hB]
  | B =>
    have hB : m.bufB = .empty := h
    cases hA : m.bufA with
    | empty => simp [Mgmt.choose, hA, hB, ← ho hA]
    | _ => simp [Mgmt.choose, hA, hB]

theorem Mgmt.choose_overrun {m : Mgmt} (hA : m.bufA ≠ .empty) (hB : m.bufB ≠ .empty) : m.choose = none := by
  unfold Mgmt.choose
  split <;> simp_all

theorem startWrite_taken {s : State} {b : BufId} (hr : s.pins.inReset = false)
    (h : s.mgmt.endTransfer.choose = some b) : startWrite s.targetAddress s = { s with
      outputs := s.outputs ++ [.addressAck true]
      mgmt := { s.mgmt.endTransfer.setBuf b (.receiving []) with mark := b.other } } := by
  simp [startWrite, State.acknowledges_own hr, h, State.emit]

theorem startWrite_overrun {s : State} (hr : s.pins.inReset = false) (h : s.mgmt.endTransfer.choose = none) :
    startWrite s.targetAddress s = { s with
      outputs := s.outputs ++ [.addressAck true]
      mgmt := { s.mgmt.endTransfer with refusing := true } } := by
  simp [startWrite, State.acknowledges_own hr, h, State.emit]

theorem startWrite_other {s : State} {a : BitVec 7} (h : s.pins.inReset = true ∨ a ≠ s.targetAddress) :
    startWrite a s = { s with outputs := s.outputs ++ [.addressAck false], mgmt := s.mgmt.endTransfer } := by
  simp [startWrite, State.acknowledges_other h, State.emit]

/-- A new write transfer: its address, then its data bytes one after another. -/
theorem exec_writeTransferStart_new (a : BitVec 7) (data : List Byte) (s : State) :
    exec (.writeTransferStart ⟨some a, data⟩) s = .next (data.foldl receiveByte (startWrite a s)) := rfl

/-- The write transfer on the bus going on: its data bytes one after another. -/
theorem exec_writeTransferStart_on (data : List Byte) (s : State) :
    exec (.writeTransferStart ⟨none, data⟩) s = .next (data.foldl receiveByte s) := rfl

/-- Settles O47: the buffer chosen (`Mgmt.choose_empty`), the overrun and the other address, of which no data byte is
received (`receiveBytes_none`). -/
theorem writeTransferChooses : Obligations.WriteTransferChooses := by
  rintro s m rfl
  refine ⟨fun hr => ⟨fun b hb ho => ?_, fun hA hB data => ?_⟩, fun a data h => ?_⟩
  · exact congrArg _ (startWrite_taken hr (Mgmt.choose_empty hb ho))
  · rw [exec_writeTransferStart_new, startWrite_overrun hr (Mgmt.choose_overrun hA hB),
      receiveBytes_none data _ s.mgmt.endTransfer_notReceiving]
    simp [Mgmt.endTransfer]
  · rw [exec_writeTransferStart_new, startWrite_other h, receiveBytes_none data _ s.mgmt.endTransfer_notReceiving]
    simp [Mgmt.endTransfer]

/-! ### The data bytes of a frame (R155 to R157) -/

theorem frameTakes_of {bytes : List Byte} {x : Byte} (h : bytes = [] ∨ (bytes.length = 1 ∧ x.toNat ≤ 72) ∨
    ∃ code len payload, bytes = code :: len :: payload ∧ payload.length < len.toNat) : frameTakes bytes x = true := by
  rcases h with rfl | ⟨hlen, hx⟩ | ⟨code, len, payload, rfl, h⟩
  · rfl
  · obtain ⟨code, rfl⟩ := List.length_eq_one_iff.mp hlen
    exact decide_eq_true hx
  · exact decide_eq_true h

theorem not_frameTakes_of {bytes : List Byte} {x : Byte} (h : (bytes.length = 1 ∧ 72 < x.toNat) ∨
    ∃ code len payload, bytes = code :: len :: payload ∧ len.toNat ≤ payload.length) : frameTakes bytes x = false := by
  rcases h with ⟨hlen, hx⟩ | ⟨code, len, payload, rfl, h⟩
  · obtain ⟨code, rfl⟩ := List.length_eq_one_iff.mp hlen
    exact decide_eq_false (Nat.not_le.mpr hx)
  · exact decide_eq_false (Nat.not_lt.mpr h)

/-- A data byte while a frame is being received: taken and acknowledged, or left to its own row (R155, log 11). -/
theorem receiveByte_receiving {s : State} {b : BufId} {bytes : List Byte}
    (h : s.mgmt.receivingBuf = some (b, bytes)) (x : Byte) : receiveByte s x =
      if frameTakes bytes x then { s with
        outputs := s.outputs ++ [.dataAck true]
        mgmt := s.mgmt.setBuf b (.receiving (bytes ++ [x])) }
      else s := by
  simp only [receiveByte, h]; rfl

theorem exec_frameComplete {s : State} {b : BufId} {code len : Byte} {payload : List Byte}
    (h : s.mgmt.receivingBuf = some (b, code :: len :: payload)) (hlen : payload.length = len.toNat) (check : Byte) :
    exec (.frameComplete code payload check) s = .next { s with
      outputs := s.outputs ++ [.dataAck true]
      mgmt := { s.mgmt.setBuf b (.pending ⟨code, payload⟩ s.mgmt.seq (crc8 (code :: len :: payload) == check)) with
        seq := s.mgmt.seq + 1
        refusing := true } } := by
  have hframe : frameOf (code :: len :: payload) = some ⟨code, payload⟩ := if_pos hlen
  change execFrameComplete code payload check s = _
  simp only [execFrameComplete, h, hframe, if_true]
  rfl

theorem exec_frameDiscard_earlyEnd {s : State} {b : BufId} {bytes : List Byte}
    (h : s.mgmt.receivingBuf = some (b, bytes)) :
    exec (.frameDiscard .earlyEnd) s = .next { s with mgmt := s.mgmt.setBuf b .empty } := by
  change execFrameDiscard .earlyEnd s = _
  simp only [execFrameDiscard, h]

theorem exec_frameDiscard_badLength {s : State} {b : BufId} {bytes : List Byte}
    (h : s.mgmt.receivingBuf = some (b, bytes)) {len : Byte} (hone : bytes.length = 1) (hlen : 72 < len.toNat) :
    exec (.frameDiscard (.badLength len)) s = .next { s with
      outputs := s.outputs ++ [.dataAck false]
      mgmt := { s.mgmt.setBuf b .empty with refusing := true } } := by
  have hbad : bytes.length = 1 ∧ Config.payloadMax < len.toNat := ⟨hone, hlen⟩
  change execFrameDiscard (.badLength len) s = _
  simp only [execFrameDiscard, h, if_pos hbad]
  rfl

/-- Settles O48: data bytes act one after another (`List.foldl_append`), and what one does by the buffer that is
RECEIVING (`receiveByte_receiving`) or where none is (`receiveBytes_none`). -/
theorem frameReceived : Obligations.FrameReceived := by
  refine ⟨fun s t a xs ys h => ?_, fun s b bytes hb ho => ?_, fun s data h => ⟨fun hr => ?_, fun hr => ?_⟩⟩
  · cases a <;> cases h <;> exact congrArg _ List.foldl_append
  · have hbuf : s.mgmt.receivingBuf = some (b, bytes) := Mgmt.receivingBuf_eq hb ho
    refine ⟨fun x hx => ?_, fun x hx => ?_, ?_, exec_frameDiscard_earlyEnd hbuf,
      fun len hone hlen => exec_frameDiscard_badLength hbuf hone hlen⟩
    · exact congrArg _ ((receiveByte_receiving hbuf x).trans (if_pos (frameTakes_of hx)))
    · exact congrArg _ ((receiveByte_receiving hbuf x).trans (if_neg (by simp [not_frameTakes_of hx])))
    · rintro code len check payload rfl hlen
      exact exec_frameComplete hbuf hlen check
  · rw [exec_writeTransferStart_on, receiveBytes_none data s h, hr]; simp
  · rw [exec_writeTransferStart_on, receiveBytes_none data s h, hr]; rfl

/-! ### The frame that arrived first (R160, R163, log 17) -/

/-- Of two sequence numbers less than half the circle apart, the one behind was given first. -/
theorem seqBefore_spec {q q' : BitVec 8} (h : 0 < (q' - q).toNat ∧ (q' - q).toNat < 128) :
    seqBefore q q' = true ∧ seqBefore q' q = false := by
  obtain ⟨hpos, hhalf⟩ := h
  have hback : ¬ (q - q').toNat < 128 := by bv_omega
  exact ⟨decide_eq_true hhalf, decide_eq_false hback⟩

theorem Mgmt.oldest_eq {m : Mgmt} {seqOf : CmdBuffer → Option (BitVec 8)} {b : BufId} {q : BitVec 8}
    (h : seqOf (m.buf b) = some q)
    (ho : ∀ q', seqOf (m.buf b.other) = some q' → 0 < (q' - q).toNat ∧ (q' - q).toNat < 128) :
    m.oldest seqOf = some b := by
  cases b with
  | A =>
    have hA : seqOf m.bufA = some q := h
    cases hB : seqOf m.bufB with
    | none => simp [Mgmt.oldest, hA, hB]
    | some q' => simp [Mgmt.oldest, hA, hB, seqBefore_spec (ho q' hB)]
  | B =>
    have hB : seqOf m.bufB = some q := h
    cases hA : seqOf m.bufA with
    | none => simp [Mgmt.oldest, hA, hB]
    | some q' => simp [Mgmt.oldest, hA, hB, seqBefore_spec (ho q' hA)]

theorem Mgmt.oldest_none {m : Mgmt} {seqOf : CmdBuffer → Option (BitVec 8)} (h : ∀ b, seqOf (m.buf b) = none) :
    m.oldest seqOf = none := by
  have hA : seqOf m.bufA = none := h .A
  have hB : seqOf m.bufB = none := h .B
  simp [Mgmt.oldest, hA, hB]

/-! ### The frame of a read transfer and its bytes (R163) -/

theorem CmdBuffer.answeredSeq_none {x : CmdBuffer} (h : ∀ r, x ≠ .answered r) : x.answeredSeq = none := by
  cases x with
  | answered r => exact absurd rfl (h r)
  | _ => rfl

theorem CmdBuffer.answeredSeq_some {x : CmdBuffer} {q : BitVec 8} (h : x.answeredSeq = some q) :
    ∃ r, x = .answered r ∧ r.seq = q := by
  cases x with
  | answered r => exact ⟨r, rfl, Option.some.inj h⟩
  | _ => cases h

theorem Mgmt.chooseFrame_notReady {m : Mgmt} (h : ∀ b r, m.buf b ≠ .answered r) :
    m.endTransfer.chooseFrame = ⟨none, [0xA5]⟩ := by
  have hnone : m.endTransfer.oldest CmdBuffer.answeredSeq = none :=
    Mgmt.oldest_none fun b => by simpa using CmdBuffer.answeredSeq_none (h b)
  simp only [Mgmt.chooseFrame, hnone]
  rfl

theorem Mgmt.chooseFrame_oldest {m : Mgmt} {b : BufId} {r : Response} (h : m.buf b = .answered r)
    (ho : ∀ r', m.buf b.other = .answered r' → 0 < (r'.seq - r.seq).toNat ∧ (r'.seq - r.seq).toNat < 128) :
    m.endTransfer.chooseFrame = ⟨some b, r.bytes⟩ := by
  have hbuf : m.endTransfer.buf b = .answered r := by rw [Mgmt.buf_endTransfer, h]; rfl
  have hold : m.endTransfer.oldest CmdBuffer.answeredSeq = some b := by
    refine Mgmt.oldest_eq (q := r.seq) (by rw [hbuf]; rfl) fun q' hq => ?_
    rw [Mgmt.buf_endTransfer, CmdBuffer.answeredSeq_discard] at hq
    obtain ⟨r', hr', rfl⟩ := CmdBuffer.answeredSeq_some hq
    exact ho r' hr'
  simp only [Mgmt.chooseFrame, hold, hbuf]

/-- The bytes sent: the chosen frame's, then FFh. -/
theorem Mgmt.send_bytes (m : Mgmt) (t : ReadTransfer) (count : Nat) :
    (m.send t count).2 = t.left.take count ++ List.replicate (count - t.left.length) 0xFF := by
  unfold Mgmt.send
  dsimp only
  split
  · split <;> rfl
  · rfl

/-- A response's buffer becomes EMPTY with its last byte, the check byte. -/
theorem Mgmt.send_response (m : Mgmt) (b : BufId) (left : List Byte) (count : Nat) :
    (m.send ⟨some b, left⟩ count).1 =
      if left.length ≤ count then { m.setBuf b .empty with reading := some ⟨none, []⟩ }
      else { m with reading := some ⟨some b, left.drop count⟩ } := by
  simp only [Mgmt.send, List.drop_eq_nil_iff]
  split <;> rfl

theorem exec_readTransfer_own {s : State} (hr : s.pins.inReset = false) {f : ReadTransfer}
    (hf : s.mgmt.endTransfer.chooseFrame = f) (count : Nat) :
    exec (.readTransfer (some s.targetAddress) count) s = .next { s with
      outputs := s.outputs ++
        [.addressAck true, .sent (f.left.take count ++ List.replicate (count - f.left.length) 0xFF)]
      mgmt := (s.mgmt.endTransfer.send f count).1 } := by
  change execReadTransfer (some s.targetAddress) count s = _
  simp only [execReadTransfer, State.acknowledges_own hr, hf, Mgmt.send_bytes, if_true]
  rfl

theorem exec_readTransfer_other {s : State} {a : BitVec 7} (h : s.pins.inReset = true ∨ a ≠ s.targetAddress)
    (count : Nat) : exec (.readTransfer (some a) count) s = .next { s with
      outputs := s.outputs ++ [.addressAck false]
      mgmt := s.mgmt.endTransfer } := by
  change execReadTransfer (some a) count s = _
  simp [execReadTransfer, State.acknowledges_other h, State.emit]

theorem exec_readTransfer_on {s : State} {f : ReadTransfer} (h : s.mgmt.reading = some f) (count : Nat) :
    exec (.readTransfer none count) s = .next { s with
      outputs := s.outputs ++ [.sent (f.left.take count ++ List.replicate (count - f.left.length) 0xFF)]
      mgmt := (s.mgmt.send f count).1 } := by
  change execReadTransfer none count s = _
  simp only [execReadTransfer, h, Mgmt.send_bytes]
  rfl

/-- The management link after the first bytes of a response have been sent. -/
theorem Mgmt.send_response_spec {m n : Mgmt} {b : BufId} {r : Response} (h : m.buf b = .answered r) (count : Nat)
    (hn : n = (m.endTransfer.send ⟨some b, r.bytes⟩ count).1) :
    n.buf b = (if r.bytes.length ≤ count then .empty else .answered r) ∧
      n.buf b.other = (m.buf b.other).discard ∧ n.seq = m.seq ∧ n.executor = m.executor ∧ n.mark = m.mark ∧
      n.scan = m.scan ∧ n.refusing = false ∧
      n.reading = some (if r.bytes.length ≤ count then ⟨none, []⟩ else ⟨some b, r.bytes.drop count⟩) := by
  rw [Mgmt.send_response] at hn
  have hbuf : m.endTransfer.buf b = .answered r := by rw [Mgmt.buf_endTransfer, h]; rfl
  by_cases hall : r.bytes.length ≤ count
  · simp only [if_pos hall] at hn ⊢
    subst hn
    exact ⟨(Mgmt.buf_congr rfl rfl b).trans (Mgmt.buf_setBuf_same _ b _),
      (Mgmt.buf_congr rfl rfl b.other).trans ((Mgmt.buf_setBuf_other _ b _).trans (Mgmt.buf_endTransfer m _)),
      Mgmt.setBuf_seq _ b _, Mgmt.setBuf_executor _ b _, Mgmt.setBuf_mark _ b _, Mgmt.setBuf_scan _ b _,
      Mgmt.setBuf_refusing _ b _, rfl⟩
  · simp only [if_neg hall] at hn ⊢
    subst hn
    exact ⟨(Mgmt.buf_congr rfl rfl b).trans hbuf,
      (Mgmt.buf_congr rfl rfl b.other).trans (Mgmt.buf_endTransfer m _), rfl, rfl, rfl, rfl, rfl, rfl⟩

/-- Settles O49, from the frame that a read transfer chooses (`Mgmt.chooseFrame_oldest`) and what it sends
(`Mgmt.send_response`). -/
theorem readTransferReturns : Obligations.ReadTransferReturns := by
  refine ⟨fun r => ⟨_, rfl, rfl⟩, by decide, by decide +kernel,
    fun s count hr => ⟨fun h => ?_, fun b r hb ho => ?_⟩, fun s a count h => exec_readTransfer_other h count,
    fun s count source left h => ?_⟩
  · refine ⟨_, exec_readTransfer_own hr (Mgmt.chooseFrame_notReady h) count, rfl, fun b => ?_, rfl, rfl, rfl, rfl, rfl,
      rfl, s.setLink_frame _ _⟩
    exact (Mgmt.buf_congr rfl rfl b).trans (Mgmt.buf_endTransfer s.mgmt b)
  · obtain ⟨hbuf, hother, hseq, hexec, hmark, hscan, hrefusing, hreading⟩ :=
      Mgmt.send_response_spec hb count rfl
    exact ⟨_, exec_readTransfer_own hr (Mgmt.chooseFrame_oldest hb ho) count, rfl, hbuf, hother, hseq, hexec, hmark,
      hscan, hrefusing, hreading, s.setLink_frame _ _⟩
  · rw [exec_readTransfer_on h]
    cases source with
    | none => rfl
    | some b => rw [Mgmt.send_response]

end Sys2Proof.Machine
end

section
/-! PROOFS. The executor's taking of a frame (R160, R161, R182), IDENTIFY (R166) and STATUS (R167). -/

namespace Sys2Proof.Machine

/-! ### The known codes (10.2) -/

theorem acceptedLengths_unknown {code : Byte} (h : ∀ e ∈ commandTable, code ≠ e.1) : acceptedLengths code = none := by
  unfold acceptedLengths
  rw [List.lookup_eq_none_iff]
  exact fun e he => bne_iff_ne.mpr (h e he)

/-- The table of 10.2 read by the lengths it gives. -/
theorem acceptedLengths_eq (code : Byte) : acceptedLengths code =
    if code = 0x32 then some (4, 67)
    else if code ∈ [0x01, 0x02, 0x04, 0x12, 0x14, 0x33, 0x41] then some (0, 0)
    else if code ∈ [0x05, 0x11, 0x24, 0x30, 0x31, 0x34] then some (1, 1)
    else if code ∈ [0x13, 0x21, 0x22, 0x23] then some (2, 2)
    else if code ∈ [0x03, 0x40] then some (3, 3)
    else if code = 0x25 then some (4, 4)
    else if code = 0x20 then some (7, 7)
    else if code = 0x10 then some (12, 12)
    else none := by
  by_cases hknown : code ∈ commandTable.map Prod.fst
  · revert code
    decide
  · have hnone : acceptedLengths code = none := acceptedLengths_unknown fun e he hc =>
      hknown (hc ▸ List.mem_map_of_mem he)
    simp_all [commandTable]

/-! ### The four checks (R161, R182) -/

theorem CmdBuffer.pendingSeq_some {x : CmdBuffer} {q : BitVec 8} (h : x.pendingSeq = some q) :
    ∃ f ok, x = .pending f q ok := by
  cases x with
  | pending f q' ok => exact ⟨f, ok, by rw [Option.some.inj h]⟩
  | _ => cases h

/-- The idle executor takes the PENDING buffer whose frame completed first. -/
theorem exec_executorTake {s : State} {b : BufId} {f : Frame} {q : BitVec 8} {ok : Bool}
    (hidle : s.mgmt.executor = .idle) (hb : s.mgmt.buf b = .pending f q ok)
    (ho : ∀ g q' ok', s.mgmt.buf b.other = .pending g q' ok' → 0 < (q' - q).toNat ∧ (q' - q).toNat < 128) :
    exec .executorTake s = .next (takeBuffer b f q ok s) := by
  have hold : s.mgmt.oldest CmdBuffer.pendingSeq = some b := by
    refine Mgmt.oldest_eq (q := q) (by rw [hb]; rfl) fun q' hq => ?_
    obtain ⟨g, ok', hg⟩ := CmdBuffer.pendingSeq_some hq
    exact ho g q' ok' hg
  change execExecutorTake s = _
  simp only [execExecutorTake, hidle, hold, hb]

theorem State.setMgmt_frame (s : State) (m : Mgmt) : SameBut [.mgmt] s { s with mgmt := m } := by
  intro p hp; cases p <;> simp_all [Part.same]

/-- The state with a frame taken: what its buffer then holds, and the executor. -/
def State.taken (s : State) (b : BufId) (x : CmdBuffer) (e : Executor) : State :=
  { s with mgmt := { s.mgmt.setBuf b x with executor := e, scan := [] } }

@[simp] theorem State.taken_buf (s : State) (b : BufId) (x : CmdBuffer) (e : Executor) :
    (s.taken b x e).mgmt.buf b = x :=
  (Mgmt.buf_congr rfl rfl b).trans (Mgmt.buf_setBuf_same _ b _)

@[simp] theorem State.taken_executor (s : State) (b : BufId) (x : CmdBuffer) (e : Executor) :
    (s.taken b x e).mgmt.executor = e := rfl

theorem State.taken_frame (s : State) (b : BufId) (x : CmdBuffer) (e : Executor) :
    SameBut [.mgmt] s (s.taken b x e) ∧ (s.taken b x e).mgmt.buf b.other = s.mgmt.buf b.other ∧
      (s.taken b x e).mgmt.seq = s.mgmt.seq ∧ (s.taken b x e).mgmt.mark = s.mgmt.mark ∧
      (s.taken b x e).mgmt.reading = s.mgmt.reading :=
  ⟨s.setMgmt_frame _, (Mgmt.buf_congr rfl rfl _).trans (Mgmt.buf_setBuf_other _ b _),
    Mgmt.setBuf_seq _ b _, Mgmt.setBuf_mark _ b _, Mgmt.setBuf_reading _ b _⟩

theorem takeBuffer_refused {s : State} {f : Frame} {ok : Bool} {st : Status}
    (h : frameRefusal s.starting f ok = some st) (b : BufId) (q : BitVec 8) :
    takeBuffer b f q ok s = s.taken b (.answered ⟨st, f.code, q, []⟩) .idle := by
  have htake : takeBuffer b f q ok s = (s.taken b (.executing f q) (.busy b .handed)).respond b st [] := by
    simp only [takeBuffer, h]; rfl
  rw [htake, State.respond, Mgmt.respond_executing (s.taken_buf b _ _)]
  cases b <;> rfl

theorem takeBuffer_handed {s : State} {f : Frame} {ok : Bool} (h : frameRefusal s.starting f ok = none) (b : BufId)
    (q : BitVec 8) : takeBuffer b f q ok s = s.taken b (.executing f q) (.busy b .handed) := by
  simp only [takeBuffer, h]; rfl

theorem State.taken_handed (s : State) (b : BufId) (f : Frame) (q : BitVec 8) :
    (s.taken b (.executing f q) (.busy b .handed)).handed f.code = some (b, f.payload) := by
  simp [State.handed]

/-- Taking a frame changes its own buffer, the executor and the scan of STATUS. -/
theorem takeBuffer_frame (b : BufId) (f : Frame) (q : BitVec 8) (ok : Bool) (s : State) :
    SameBut [.mgmt] s (takeBuffer b f q ok s) ∧
      (takeBuffer b f q ok s).mgmt.buf b.other = s.mgmt.buf b.other ∧
      (takeBuffer b f q ok s).mgmt.seq = s.mgmt.seq ∧ (takeBuffer b f q ok s).mgmt.mark = s.mgmt.mark ∧
      (takeBuffer b f q ok s).mgmt.reading = s.mgmt.reading := by
  cases h : frameRefusal s.starting f ok with
  | none => rw [takeBuffer_handed h]; exact s.taken_frame b _ _
  | some st => rw [takeBuffer_refused h]; exact s.taken_frame b _ _

/-- The first two checks, of a frame whose check byte is wrong or whose code is unknown. -/
theorem frameRefusal_badCheck (starting : Bool) (f : Frame) : frameRefusal starting f false = some .badCheck := rfl

theorem frameRefusal_unknown {f : Frame} (h : acceptedLengths f.code = none) (starting : Bool) :
    frameRefusal starting f true = some .unknownCommand := by
  simp only [frameRefusal, h]; rfl

/-- The last two checks, of a frame of a known code. -/
theorem frameRefusal_known {f : Frame} {lo hi : Nat} (h : acceptedLengths f.code = some (lo, hi)) (starting : Bool) :
    frameRefusal starting f true =
      if f.payload.length < lo ∨ hi < f.payload.length then some .badLength
      else if starting ∧ f.code ≠ 0x01 ∧ f.code ≠ 0x02 ∧ f.code ≠ 0x05 then some .starting
      else none := by
  simp only [frameRefusal, h]; rfl

/-- Settles O50: the buffer taken (`exec_executorTake`), and the four checks in their order. -/
theorem executorTakes : Obligations.ExecutorTakes := by
  refine ⟨acceptedLengths_eq, fun s b f q ok hidle hb ho => ?_⟩
  obtain ⟨hframe, hother, hseq, hmark, hreading⟩ := takeBuffer_frame b f q ok s
  refine ⟨_, exec_executorTake hidle hb ho, hframe, hother, hseq, hmark, hreading, ?_⟩
  intro refused
  have hrefused : ∀ st, frameRefusal s.starting f ok = some st → refused st := fun st h => by
    simp [refused, takeBuffer_refused h]
  cases ok with
  | false => exact hrefused _ (frameRefusal_badCheck _ f)
  | true =>
    cases hacc : acceptedLengths f.code with
    | none => exact hrefused _ (frameRefusal_unknown hacc _)
    | some range =>
      obtain ⟨lo, hi⟩ := range
      have hchecks := frameRefusal_known hacc s.starting
      simp only [State.starting_iff] at hchecks
      simp only [reduceCtorEq, if_false]
      split
      case isTrue hlen => exact hrefused _ (hchecks.trans (if_pos hlen))
      case isFalse hlen =>
        rw [if_neg hlen] at hchecks
        split
        case isTrue hstart => exact hrefused _ (hchecks.trans (if_pos hstart))
        case isFalse hstart =>
          rw [takeBuffer_handed (hchecks.trans (if_neg hstart))]
          exact ⟨s.taken_handed b f q, s.taken_buf b _ _⟩

/-! ### IDENTIFY (R166) -/

theorem exec_identify {s : State} {b : BufId} {p : List Byte} (h : s.handed 0x01 = some (b, p)) :
    ∃ t, exec .identify s = .next t ∧ Answered b .ok identifyPayload s t ∧ SameBut [.mgmt] s t :=
  runCommand_unchanged h rfl

/-! ### STATUS (R167, 10.4) -/

/-- Each owner's items fill their places of 10.4. -/
theorem statusParts_lengths (s : State) : (statusParts s).map List.length = [4, 2, 2, 3, 3, 12, 2, 4, 2] := by
  cases h : s.fill.lastEnd <;> simp [statusParts, h, leBytes]

/-- A STATUS event reads the next owners, and the one that reads the last places the response. -/
theorem exec_status {s : State} {b : BufId} {p : List Byte} (h : s.handed 0x02 = some (b, p)) {owners : Nat}
    {parts : List (List Byte)} (hparts : parts = s.mgmt.scan ++ ((statusParts s).drop s.mgmt.scan.length).take owners) :
    exec (.status owners) s =
      if 9 ≤ parts.length then .next (s.respond b .ok parts.flatten)
      else .next { s with mgmt := { s.mgmt with scan := parts } } := by
  subst hparts
  change execStatus owners s = _
  simp only [execStatus, h]
  rfl

/-- The segment of the last end, 00h for none. -/
def FillUnit.lastEndId (f : FillUnit) : Byte := segByte (f.lastEnd.map Prod.fst)

/-- The outcome of the last end, 00h for none. -/
def FillUnit.lastEndCode (f : FillUnit) : Byte :=
  match f.lastEnd with
  | some (_, o) => o.code
  | none => 0x00

/-- The 34 bytes of STATUS in the order of 10.4. -/
theorem statusParts_flatten (s : State) : (statusParts s).flatten =
    [byte (s.pins.sz.toNat + (if s.pins.bootEn then 8 else 0) + 16 * s.pins.ma.toNat), byte (memoryMiB s.pins.sz),
      byte (s.mgmt.bufA.code + 16 * s.mgmt.bufB.code), s.mgmt.seq, s.startup.stage.code, s.startup.outcome.code] ++
    leBytes 2 s.map.generation.toNat ++ leBytes 2 s.store.free.length ++
    [byte s.store.residence.length, byte s.port.tags.length, byte s.port.readQueue.length, byte s.port.held.length,
      s.fill.engine.code, segByte s.fill.engine.current, byte s.fill.queue.length] ++
    leBytes 3 s.fill.engine.received ++ [s.fill.lastEndId, s.fill.lastEndCode] ++ leBytes 2 s.fill.startTimeout ++
    leBytes 2 s.fill.gapTimeout ++
    [byte s.write.queue.length, byte s.write.highWater, s.ctl.link.code, s.ctl.holder.code, byte s.ctl.busyTimeout,
      byte s.ctl.divider, byte s.events.records.length, byte s.events.lost] := by
  cases h : s.fill.lastEnd <;> simp [statusParts, FillUnit.lastEndId, FillUnit.lastEndCode, segByte, leBytes, h]

/-- Settles O51, from the parts of STATUS (`statusParts_lengths`, `statusParts_flatten`) and its events
(`exec_status`). -/
theorem identifyAndStatus : Obligations.IdentifyAndStatus := by
  refine ⟨fun _ _ _ _ _ => rfl, by decide, fun _ _ _ _ _ => rfl, ⟨rfl, fun r => by cases r <;> rfl⟩,
    fun s b p h => ?_, statusParts_lengths, fun s b p owners parts h hparts => ⟨fun hfew => ?_, fun hall => ?_⟩,
    fun s b p pl h hscan hpl => ?_⟩
  · obtain ⟨t, ht, hanswered, hframe⟩ := exec_identify h
    exact ⟨t, ht, hframe, hanswered⟩
  · exact (exec_status h hparts).trans (if_neg (by omega))
  · exact ⟨_, (exec_status h hparts).trans (if_pos hall), s.respond_frame b _ _, State.respond_answered h rfl _ _⟩
  · have hparts : statusParts s = s.mgmt.scan ++ ((statusParts s).drop s.mgmt.scan.length).take 9 := by
      rw [hscan]; rfl
    refine ⟨_, (exec_status h hparts).trans (if_pos (Nat.le_refl 9)), s.respond_frame b _ _, ?_, ?_⟩
    · rw [hpl]; exact State.respond_answered h rfl _ _
    rw [statusParts_flatten] at hpl
    subst hpl
    refine ⟨rfl, rfl, rfl, rfl, rfl, rfl, rfl, rfl, rfl, rfl, rfl, rfl, rfl, rfl, ?_, rfl, ?_, ?_, rfl, rfl, rfl, rfl,
      rfl, rfl, rfl, rfl, rfl, rfl⟩
    · cases s.fill.engine <;> rfl
    · cases s.fill.engine <;> rfl
    · change [s.fill.lastEndId, s.fill.lastEndCode] = _
      unfold FillUnit.lastEndId FillUnit.lastEndCode
      cases s.fill.lastEnd <;> rfl

end Sys2Proof.Machine
end

section
/-! PROOFS. The event queue: what a post changes (R175), what EVENT_READ removes, appends and answers (R177, R178),
and the sixteen bytes of a record (R184). -/

namespace Sys2Proof.Machine

theorem State.setEvents_frame (s : State) (q : EventQueue) : SameBut [.events] s { s with events := q } := by
  intro p hp; cases p <;> simp_all [Part.same]

/-! ### A post (R165, R175) -/

/-- ATTN_N is low exactly while the queue holds a record (R165). -/
theorem State.attnLow_iff (s : State) : s.attnLow = true ↔ s.events.records ≠ [] := by
  simp [State.attnLow]

theorem State.attnLow_congr {s t : State} (h : t.events.records = s.events.records) : t.attnLow = s.attnLow := by
  unfold State.attnLow; rw [h]

/-- A post to a queue that has lost none leaves a record: the stored one, or the fifteen that kept it out. -/
theorem EventQueue.post_nonempty {q : EventQueue} (h : q.lost = 0) (e : Event) : (q.post e).records ≠ [] := by
  obtain ⟨-, ⟨-, -, hrecords, -⟩ | ⟨hfull, hrecords, -⟩⟩ := q.post_spec e
  · rw [hrecords]; simp
  · have hmany : ¬ q.records.length < 15 := not_and.mp hfull h
    rw [hrecords]
    exact List.ne_nil_of_length_pos (by omega)

/-- Settles O53, by what a post does to the queue (`EventQueue.post_spec`). -/
theorem eventPosted : Obligations.EventPosted := by
  intro s e
  obtain ⟨hseq, hcases⟩ := s.events.post_spec e
  refine ⟨hseq, s.setEvents_frame _, fun hnone => (State.attnLow_iff _).mpr (EventQueue.post_nonempty hnone e), ?_⟩
  rcases hcases with ⟨hnone, hroom, hrecords, hlost⟩ | ⟨hfull, hrecords, hlost⟩
  · rw [if_pos ⟨hnone, hroom⟩]
    exact ⟨hrecords, hlost⟩
  · rw [if_neg hfull]
    refine ⟨hrecords, State.attnLow_congr hrecords, ?_⟩
    rw [State.post_events, hlost]
    split <;> omega

/-! ### EVENT_READ (R177, R178) -/

/-- The queue that a removal leaves: EVENTS_LOST stands at its tail where records are lost and none remains in it. -/
theorem EventQueue.take_fst (q : EventQueue) (max : Nat) : (q.take max).1 =
    if 0 < q.lost ∧ (q.records.drop max).all (fun r => !r.isLost) = true then
      { records := q.records.drop max ++ [⟨.eventsLost q.lost, q.seq⟩], lost := 0, seq := q.seq + 1 }
    else { q with records := q.records.drop max } := by
  have hall : (q.records.drop max).all (fun r => !r.isLost) = true ↔
      ∀ r ∈ q.records.drop max, EventRec.isLost r = false := by simp
  rcases EventQueue.appendLost_spec { q with records := q.records.drop max } with
    ⟨hlost, hnone, happend⟩ | ⟨hkept, happend⟩
  · exact happend.trans (if_pos ⟨hlost, hall.mpr hnone⟩).symm
  · refine happend.trans (if_neg fun ⟨hlost, hnone⟩ => ?_).symm
    rcases hkept with hzero | ⟨r, hr, hisLost⟩
    · exact absurd hzero (Nat.ne_of_gt hlost)
    · exact Bool.false_ne_true ((hall.mp hnone r hr).symm.trans hisLost)

theorem ownEventRead_refused {p : List Byte} (h : (byteAt p 0).toNat = 0 ∨ 4 < (byteAt p 0).toNat) (s : State) :
    ownEventRead p s = .unchanged s .badArgument := by
  unfold ownEventRead
  rw [field_byte0]
  exact if_pos h

theorem ownEventRead_read {p : List Byte} (h : ¬ ((byteAt p 0).toNat = 0 ∨ 4 < (byteAt p 0).toNat)) (s : State) :
    ownEventRead p s = ⟨{ s with events := (s.events.take (byteAt p 0).toNat).1 }, .ok,
      byte (min (byteAt p 0).toNat s.events.records.length) ::
        ((s.events.records.take (byteAt p 0).toNat).map EventRec.bytes).flatten⟩ := by
  unfold ownEventRead
  rw [field_byte0, ← List.length_take]
  exact if_neg h

/-! ### The bytes of a record (R184, 10.5) -/

theorem leBytes_two (v : Nat) : leBytes 2 v = [byte v, byte (v / 256)] := rfl

theorem leBytes_three (v : Nat) : leBytes 3 v = [byte v, byte (v / 256), byte (v / 65536)] := by
  simp [leBytes, Nat.div_div_eq_div_mul]

/-- The longest fields are those of FILL_REQUEST and READ_FAULT, seven bytes. -/
theorem Event.fields_length_le (e : Event) : e.fields.length ≤ 7 := by
  cases e with
  | dnStalled uncertain n failed => cases uncertain <;> simp [Event.fields, leBytes]
  | _ => simp [Event.fields, leBytes]

theorem EventRec.bytes_length (r : EventRec) : r.bytes.length = 16 := by
  have hfields := r.event.fields_length_le
  simp only [EventRec.bytes, List.length_append, List.length_replicate, List.length_cons]
  omega

/-- Settles O54: the bytes of each kind of record, and the removal (`EventQueue.take_fst`) with its response. -/
theorem eventReadEffect : Obligations.EventReadEffect := by
  refine ⟨fun e q fs hfs => ?_, rfl, ?_⟩
  · have hlayout : fs = e.kind :: q :: e.fields := by
      subst hfs
      cases e with
      | fillRequest i len crc held => simp only [Event.fields, leBytes_three, leBytes_two]; rfl
      | fillDone i o n => cases o <;> rfl
      | fillFailed i r n => cases r <;> rfl
      | evicted i n j => rfl
      | readFault tag a n r i => simp only [Event.fields, leBytes_three]; cases i <;> rfl
      | writeFault a n r i => simp only [Event.fields, leBytes_three]; cases i <;> rfl
      | dnStalled uncertain n failed =>
        cases uncertain with
        | none => rfl
        | some write => simp only [Event.fields, leBytes_three]; rfl
      | catalogConflict id r => cases r <;> rfl
      | startupDone o g n m => cases o <;> rfl
      | eventsLost n => rfl
    exact ⟨hlayout ▸ rfl, EventRec.bytes_length _⟩
  · rintro s b p m h rfl
    have hexec : exec .eventRead s = runCommand 0x05 ownEventRead s := rfl
    rw [hexec]
    split
    case isTrue hbad => exact runCommand_unchanged h (ownEventRead_refused hbad s)
    case isFalse hmax =>
      have hread := ownEventRead_read hmax s
      refine ⟨_, runCommand_replied h hread, ?_, rfl, State.respond_answered h rfl _ _, ?_⟩
      · exact ((s.setEvents_frame _).mono (by simp)).trans ((State.respond_frame _ b _ _).mono (by simp))
      · have hqueue := s.events.take_fst (byteAt p 0).toNat
        split
        case isTrue hdue => exact hqueue.trans (if_pos hdue)
        case isFalse hdue => exact hqueue.trans (if_neg hdue)

end Sys2Proof.Machine
end

section
/-! PROOFS. The step function: one equation for each form of the queue of waiting commands (log 1). -/

namespace Sys2Proof.Machine

theorem step_of_pending_cons {s : State} {c : Instr} {rest : List Instr} (h : s.pending = c :: rest) :
    step s = exec c { s with pending := rest } := by
  unfold step
  rw [h]

theorem step_of_pending_nil {s : State} (h : s.pending = []) : step s = .next s := by
  unfold step
  rw [h]

/-- Settles O1: the two forms of the queue, a front command (`step_of_pending_cons`) and none
(`step_of_pending_nil`). -/
theorem stepRunsFront : Obligations.StepRunsFront := by
  unfold Obligations.StepRunsFront
  constructor
  · intro c rest s
    exact step_of_pending_cons rfl
  · intro s hempty
    exact step_of_pending_nil hempty

end Sys2Proof.Machine
end
